-- ==== Sys2Proof/Word.lean ====
section
/-! DEFINITION. The word types of the block: the 16-bit command and result words, the bytes of an
8-bit transport, and timestamps of TS_WIDTH bits (00_scope.md R8, R9; 10_state.md R36). -/

namespace Sys2Proof

/-- A `CMD` or `RESULT` word (10_state.md R36). Bit 0 is the least significant (R9). -/
abbrev Word := BitVec 16

/-- One byte of a memory cell or of an 8-bit transport (20_memory.md R53). -/
abbrev Byte := BitVec 8

/-- A value of the clock input or of a timestamp register, `w` = TS_WIDTH bits (00_scope.md R8). -/
abbrev Timestamp (w : Nat) := BitVec w

end Sys2Proof
end

