-- ==== Sys2Proof/Config.lean ====
section
/-! DEFINITION. The implementation parameters that the spec leaves open (00_scope.md R8). The named
constants of R7 stand in Sys2Proof/Machine/Constants.lean. The spec leaves no value free after an
operation (60_exceptions.md R212), so there is no free value here. -/

namespace Sys2Proof

/-- The two implementation parameters of 00_scope.md R8. A model "takes both as arguments": they
are data here, so that every statement holds for any value of them. -/
structure Config where
  /-- `TS_WIDTH`: the width of the clock input and of every timestamp register. -/
  tsWidth : Nat
  /-- `HAS_TEST_PORT`: whether RDSLOT and WRSLOT exist. -/
  hasTestPort : Bool
deriving DecidableEq, Repr

/-- The defaults of 00_scope.md R8: `TS_WIDTH` = 32, `HAS_TEST_PORT` = true. -/
def Config.default : Config := { tsWidth := 32, hasTestPort := true }

/-- 00_scope.md R8: the spec's rules are stated for any `TS_WIDTH` of at least 20. -/
abbrev Config.ok (c : Config) : Prop := 20 ≤ c.tsWidth

end Sys2Proof
end

