-- ==== Sys2Proof/Machine/Constants.lean ====
section
/-! DEFINITION. The named constants of 00_scope.md R7. They stand in this folder, not in
Sys2Proof/Config.lean, because the spec calls them unaudited (92_eei_decisions.md D30): a repair may
change a body in this folder. -/

namespace Sys2Proof.Machine

/-- `MIN_INTERPULSE_MS`: minimum inter-pulse distance (00_scope.md R7). -/
abbrev minInterpulseMs : Nat := 700

/-- `MIN_PULSE_MS`: minimum pulse width (00_scope.md R7). -/
abbrev minPulseMs : Nat := 50

/-- `SPLIT_MS`: long/short split threshold (00_scope.md R7). -/
abbrev splitMs : Nat := 180

/-- `SYNC_MS`: sync-detection threshold, compared strictly (00_scope.md R7, 90_conflicts.md C1). -/
abbrev syncMs : Nat := 1500

/-- `MAX_GAP_MS`: maximum inter-pulse gap (00_scope.md R7). -/
abbrev maxGapMs : Nat := 2500

/-- `STALE_MS`: staleness window (00_scope.md R7). -/
abbrev staleMs : Nat := 300000

/-- `BUF_LEN`: the number of slots of the bit buffer (00_scope.md R7). -/
abbrev bufLen : Nat := 61

/-- `VALID_CURSOR_MIN`: the cursor from which a frame may be valid (00_scope.md R7). -/
abbrev validCursorMin : Nat := 35

end Sys2Proof.Machine
end

