-- ==== Sys2Proof/Syntax.lean ====
section
/-! DEFINITION. The thirteen operations of the block (30_encoding.md R73), one constructor for each
row of spec/opcode_table.json. EDGE takes its level from the port LINE and every operation takes its
time from the port NOW (R71), so only the test port's operations carry operands. -/

namespace Sys2Proof

/-- An operation of the block, in the order of its `OP` numbers (30_encoding.md R73). -/
inductive Instr where
  /-- `NOP`, OP 0x0 (42_lifecycle.md R183). -/
  | nop
  /-- `EDGE`, OP 0x1 (40_edge_classifier.md R100). -/
  | edge
  /-- `START`, OP 0x2 (42_lifecycle.md R180). -/
  | start
  /-- `STOP`, OP 0x3 (42_lifecycle.md R181). -/
  | stop
  /-- `RESTART`, OP 0x4 (42_lifecycle.md R182). -/
  | restart
  /-- `HAS_SIGNAL`, OP 0x5 (41_queries.md R140). -/
  | hasSignal
  /-- `IS_VALID`, OP 0x6 (41_queries.md R145). -/
  | isValid
  /-- `GET_SECOND`, OP 0x7 (41_queries.md R167). -/
  | getSecond
  /-- `GET_MINUTE`, OP 0x8 (41_queries.md R166). -/
  | getMinute
  /-- `GET_HOUR`, OP 0x9 (41_queries.md R165). -/
  | getHour
  /-- `GET_MINUTE_OF_DAY`, OP 0xA (41_queries.md R164). -/
  | getMinuteOfDay
  /-- `RDSLOT idx`, OP 0xB (43_test_port.md R200). -/
  | rdslot (idx : BitVec 6)
  /-- `WRSLOT idx, v`, OP 0xC (43_test_port.md R201). -/
  | wrslot (idx : BitVec 6) (v : Bool)
deriving DecidableEq, Repr

/-- The mnemonic of an operation (30_encoding.md R73). -/
def Instr.mnemonic : Instr → String
  | .nop => "NOP"
  | .edge => "EDGE"
  | .start => "START"
  | .stop => "STOP"
  | .restart => "RESTART"
  | .hasSignal => "HAS_SIGNAL"
  | .isValid => "IS_VALID"
  | .getSecond => "GET_SECOND"
  | .getMinute => "GET_MINUTE"
  | .getHour => "GET_HOUR"
  | .getMinuteOfDay => "GET_MINUTE_OF_DAY"
  | .rdslot _ => "RDSLOT"
  | .wrslot _ _ => "WRSLOT"

end Sys2Proof
end

