-- ==== Sys2Proof/WellFormed.lean ====
section
/-! DEFINITION. Which operations exist: a slot operand names one of the slots 0..60, and the test
port's operations exist only when HAS_TEST_PORT is true (30_encoding.md R74, R77). -/

namespace Sys2Proof

/-- An `IDX` operand is legal only for values 0..60 (30_encoding.md R71). -/
def slotExists (idx : BitVec 6) : Bool := decide (idx.toNat < Machine.bufLen)

/-- Whether the encoding of an operation is legal in a block with or without a test port
(30_encoding.md R74). -/
def Instr.wellFormed (hasTestPort : Bool) : Instr → Bool
  | .nop => true
  | .edge => true
  | .start => true
  | .stop => true
  | .restart => true
  | .hasSignal => true
  | .isValid => true
  | .getSecond => true
  | .getMinute => true
  | .getHour => true
  | .getMinuteOfDay => true
  | .rdslot idx => hasTestPort && slotExists idx
  | .wrslot idx _ => hasTestPort && slotExists idx

end Sys2Proof
end

