-- ==== Sys2Proof/Decode.lean ====
section
/-! DEFINITION. Decoding, total over all words and all byte strings (30_encoding.md R75, 20_memory.md
R53), and after it the encoder, written from the encoding tables of R70 and R73. -/

namespace Sys2Proof

/-! ### Fields of a command word (30_encoding.md R70) -/

/-- `OP` = `CMD[3:0]`. -/
def opField (w : Word) : BitVec 4 := w.extractLsb' 0 4

/-- `V` = `CMD[4]`. -/
def vField (w : Word) : BitVec 1 := w.extractLsb' 4 1

/-- `RSV0` = `CMD[7:5]`. -/
def rsv0Field (w : Word) : BitVec 3 := w.extractLsb' 5 3

/-- `IDX` = `CMD[13:8]`. -/
def idxField (w : Word) : BitVec 6 := w.extractLsb' 8 6

/-- `RSV1` = `CMD[15:14]`. -/
def rsv1Field (w : Word) : BitVec 2 := w.extractLsb' 14 2

/-! ### The decoder -/

/-- Why a word is illegal: the causes of the table in 60_exceptions.md R210. The block itself stores
no cause, so all of them end in one response. -/
inductive DecodeError where
  /-- `OP` 0xD to 0xF. -/
  | reservedOp
  /-- `RSV0` or `RSV1` is not 0. -/
  | reservedBits
  /-- `V` or `IDX` is not 0 in an operation that takes no such operand. -/
  | strayOperand
  /-- `IDX` is 61, 62 or 63. -/
  | slotOutOfRange
  /-- `OP` 0xB or 0xC in a block without a test port. -/
  | noTestPort
  /-- Fewer than two bytes are left on an 8-bit transport. 20_memory.md R53 gives only the order of the two
  bytes; this cause is the model's choice (notes/assumptions/10.md). -/
  | truncated
deriving DecidableEq, Repr

/-- The operations without an operand, by `OP`: the list of 30_encoding.md R75. -/
def plainOp : Nat → Except DecodeError Instr
  | 0x0 => .ok .nop
  | 0x1 => .ok .edge
  | 0x2 => .ok .start
  | 0x3 => .ok .stop
  | 0x4 => .ok .restart
  | 0x5 => .ok .hasSignal
  | 0x6 => .ok .isValid
  | 0x7 => .ok .getSecond
  | 0x8 => .ok .getMinute
  | 0x9 => .ok .getHour
  | 0xA => .ok .getMinuteOfDay
  | _ => .error .reservedOp

/-- 30_encoding.md R75: decoding, total over all 2^16 words. -/
def decode (hasTestPort : Bool) (w : Word) : Except DecodeError Instr :=
  if rsv0Field w ≠ 0 ∨ rsv1Field w ≠ 0 then .error .reservedBits
  else if (opField w).toNat ≤ 0xA then
    if vField w ≠ 0 ∨ idxField w ≠ 0 then .error .strayOperand
    else plainOp (opField w).toNat
  else if opField w = 0xB ∨ opField w = 0xC then
    if hasTestPort = false then .error .noTestPort
    else if slotExists (idxField w) = false then .error .slotOutOfRange
    else if opField w = 0xB then
      if vField w ≠ 0 then .error .strayOperand
      else .ok (.rdslot (idxField w))
    else .ok (.wrslot (idxField w) (vField w == 1))
  else .error .reservedOp

/-! ### Words as bytes of an 8-bit transport (20_memory.md R53) -/

/-- The two bytes of a word on an 8-bit transport: the low byte (bits 7:0) goes first. -/
def wordBytes (w : Word) : List Byte := [w.extractLsb' 0 8, w.extractLsb' 8 8]

/-- The word whose low byte came first. -/
def wordOfBytes (lo hi : Byte) : Word := hi ++ lo

/-- Reads one operation from the bytes of an 8-bit transport and leaves the rest. 20_memory.md R53 gives only
the order of the two bytes of a word; that a lone trailing byte is refused, and no word, is a DESIGN CHOICE
of the model (notes/assumptions/10.md). -/
def decodeBytes (hasTestPort : Bool) : List Byte → Except DecodeError (Instr × List Byte)
  | lo :: hi :: rest =>
    match decode hasTestPort (wordOfBytes lo hi) with
    | .ok i => .ok (i, rest)
    | .error e => .error e
  | _ => .error .truncated

/-! ### The encoder -/

/-- A word from its fields, with both reserved fields 0 (30_encoding.md R70): `RR IIIIII RRR V OOOO`. -/
def assemble (op : BitVec 4) (v : BitVec 1) (idx : BitVec 6) : Word :=
  (0 : BitVec 2) ++ idx ++ (0 : BitVec 3) ++ v ++ op

/-- The words of 30_encoding.md R73. -/
def encode : Instr → Word
  | .nop => assemble 0x0 0 0
  | .edge => assemble 0x1 0 0
  | .start => assemble 0x2 0 0
  | .stop => assemble 0x3 0 0
  | .restart => assemble 0x4 0 0
  | .hasSignal => assemble 0x5 0 0
  | .isValid => assemble 0x6 0 0
  | .getSecond => assemble 0x7 0 0
  | .getMinute => assemble 0x8 0 0
  | .getHour => assemble 0x9 0 0
  | .getMinuteOfDay => assemble 0xA 0 0
  | .rdslot idx => assemble 0xB 0 idx
  | .wrslot idx v => assemble 0xC (BitVec.ofBool v) idx

/-- An operation as the bytes of an 8-bit transport (20_memory.md R53). -/
def encodeBytes (i : Instr) : List Byte := wordBytes (encode i)

/-! ### The host's question -/

/-- The operation that the decoder reads from a word of `nbits` bits numbered as spec/opcode_table.json
numbers them, in a block with the default parameters (00_scope.md R8). Every word of this hardware has 16
bits, so a set bit above them is refused. -/
def decodeTableWord (nbits w : Nat) : Option Instr :=
  if w % 2 ^ nbits < 2 ^ 16 then
    match decodeBytes Config.default.hasTestPort (wordBytes (BitVec.ofNat 16 (w % 2 ^ nbits))) with
    | .ok (i, _) => some i
    | .error _ => none
  else none

end Sys2Proof
end

