-- ==== Sys2Proof/Machine/State.lean ====
section
/-! DEFINITION. The state of the block: every element of 10_state.md R22, every port of R36, and two
fields of the model's own, the parameters `cfg` (notes/assumptions/1.md) and the inputs to come
`pending` (notes/assumptions/2.md). -/

namespace Sys2Proof.Machine

/-- The bit buffer, the block's only memory (20_memory.md R50), as cells of slot number and byte in one
canonical form (`Memory.wf`). A slot is one bit, bit 0 of its cell's byte (notes/assumptions/8.md). -/
abbrev Memory := List Host.Cell

/-- Who issues an operation (00_scope.md R12). The block does not check it (60_exceptions.md R220). -/
inductive Agent where
  /-- The platform's pin-interrupt collaborator. -/
  | edgeSource
  /-- Ordinary sequential control flow. -/
  | consumer
deriving DecidableEq, Repr

/-- What the outside presents to the block at one step, for timestamps of `w` bits (10_state.md R36,
R37; 70_reset_and_hazards.md R241). -/
inductive Input (w : Nat) where
  /-- `CMD_VALID` = 1: `agent` issues the word `cmd` while the clock shows `now` and the line is at
  `line`. -/
  | issue (agent : Agent) (cmd : Word) (now : Timestamp w) (line : Bool)
  /-- `CMD_VALID` = 0: only the clock and the line have moved. -/
  | idle (now : Timestamp w) (line : Bool)
  /-- A platform reset of the block. -/
  | reset
deriving DecidableEq, Repr

/-- The whole state of the block and its ports. -/
structure State where
  /-- The parameters of 00_scope.md R8, written by no step. -/
  cfg : Config
  /-- `LVL_PREV`: the level seen by the last accepted edge (10_state.md R23). -/
  lvlPrev : Bool
  /-- `T_START_PREV`: the accepted rising edge before the most recent one (R24). -/
  tStartPrev : Timestamp cfg.tsWidth
  /-- `T_START_CUR`: the most recent accepted rising edge (R24). -/
  tStartCur : Timestamp cfg.tsWidth
  /-- `T_END`: the most recent accepted falling edge (R25). -/
  tEnd : Timestamp cfg.tsWidth
  /-- `QUALITY`: the only status flag (R26, R31). -/
  quality : Bool
  /-- `CURSOR`: 6 bits, always 0..60 in a reachable state (R27). -/
  cursor : BitVec 6
  /-- `T_SYNC`: the most recent sync, 0 when unset (R28). -/
  tSync : Timestamp cfg.tsWidth
  /-- `T_EXPIRY`: when the frame becomes stale (R28). -/
  tExpiry : Timestamp cfg.tsWidth
  /-- `BUF[0..60]` (R29). -/
  buf : Memory
  /-- `POWER_EN` (R30). -/
  powerEn : Bool
  /-- `EDGE_EN` (R30). -/
  edgeEn : Bool
  /-- The port `CMD` (R36). -/
  cmd : Word
  /-- The port `CMD_VALID` (R36). -/
  cmdValid : Bool
  /-- The port `NOW` (R36, R37). -/
  now : Timestamp cfg.tsWidth
  /-- The port `LINE` (R36, R37). -/
  line : Bool
  /-- The port `RESULT`, which holds the last response (R36; 70_reset_and_hazards.md R240). -/
  result : Word
  /-- The port `ERR`, which holds the last response (R36; 70_reset_and_hazards.md R240). -/
  err : Bool
  /-- The inputs to come, in the total order of 20_memory.md R59. -/
  pending : List (Input cfg.tsWidth)
deriving DecidableEq, Repr

/-- The faults of the model. The block itself has none (60_exceptions.md R212). -/
inductive Fault where
  /-- A slot outside 0..60 is written. Raised by `storeSlot` alone, for a falling edge with `CURSOR` in
  61..63, which no reachable state has (10_state.md R27). Safe: the spec gives such a slot no
  existence (20_memory.md R54). -/
  | noSuchSlot
deriving DecidableEq, Repr

/-- The refusals of the model. No arm of `exec` answers with one: every operation has its meaning. -/
inductive Refusal where
  /-- The operation has no meaning yet. Raised by an arm of `exec` only. Safe. -/
  | notModelled (mnemonic : String)
deriving DecidableEq, Repr

/-- Power-on reset (70_reset_and_hazards.md R240), with the default parameters of 00_scope.md R8
(notes/assumptions/1.md), the input ports at 0 (notes/assumptions/3.md) and no input to come
(notes/assumptions/2.md). -/
def State.reset : State where
  cfg := Config.default
  lvlPrev := false
  tStartPrev := 0
  tStartCur := 0
  tEnd := 0
  quality := false
  cursor := 0
  tSync := 0
  tExpiry := 0
  buf := []
  powerEn := false
  edgeEn := false
  cmd := 0
  cmdValid := false
  now := 0
  line := false
  result := 0
  err := false
  pending := []

end Sys2Proof.Machine
end

