-- ==== Sys2Proof/Machine/Ops.lean ====
section
/-! DEFINITION. The named operations that the meanings share: timestamp arithmetic, the bit buffer as
memory, the response and the one error response, clearing, reset, and the ports. -/

namespace Sys2Proof.Machine

/-- One step's answer. -/
abbrev Result := Host.Outcome State Fault Refusal

/-- Goes on with `f` where `o` answers a next state. -/
def andThen (o : Result) (f : State → Result) : Result :=
  match o with
  | .next s => f s
  | .fault r => .fault r
  | .refused r => .refused r

/-! ### Timestamps (00_scope.md R10) -/

/-- `gap(a, b) = (a - b) mod 2^TS_WIDTH`. -/
def gap {w : Nat} (a b : Timestamp w) : Timestamp w := a - b

/-- `add(a, b) = (a + b) mod 2^TS_WIDTH`, for a constant `b`. -/
def addMs {w : Nat} (a : Timestamp w) (b : Nat) : Timestamp w := a + BitVec.ofNat w b

/-! ### The bit buffer (20_memory.md R50) -/

/-- What an unlisted slot reads as: the reset contents of 70_reset_and_hazards.md R240. -/
def Memory.unlisted : Byte := 0

/-- The byte of the first cell that lists `a`, or `Memory.unlisted`. -/
def Memory.readByte : Memory → Nat → Byte
  | [], _ => Memory.unlisted
  | (k, b) :: m, a => if k = a then b else Memory.readByte m a

/-- The memory without the cells of `a`. -/
def Memory.dropCell (m : Memory) (a : Nat) : Memory := m.filter fun c => c.1 != a

/-- The memory with the cell `(a, b)` put before the first higher slot. -/
def Memory.putCell : Memory → Nat → Byte → Memory
  | [], a, b => [(a, b)]
  | (k, v) :: m, a, b => if a < k then (a, b) :: (k, v) :: m else (k, v) :: Memory.putCell m a b

/-- A write keeps the canonical form: writing what an unlisted slot reads as removes the cell. -/
def Memory.writeByte (m : Memory) (a : Nat) (b : Byte) : Memory :=
  if b = Memory.unlisted then m.dropCell a else (m.dropCell a).putCell a b

/-- The byte that holds a slot's bit: the bit in bit 0, the rest 0. -/
def bitByte (b : Bool) : Byte := if b then 1 else 0

/-- `MemRead(i, 1)` (20_memory.md R50). -/
def Memory.readSlot (m : Memory) (i : Nat) : Bool := (m.readByte i).getLsbD 0

/-- `MemWrite(i, 1, b)` (20_memory.md R50). -/
def Memory.writeSlot (m : Memory) (i : Nat) (b : Bool) : Memory := m.writeByte i (bitByte b)

/-- The canonical form: slot numbers strictly rising, each a slot that exists, and no cell equal to what an
unlisted slot reads as, which for a one-bit slot leaves the byte 1. -/
abbrev Memory.wf (m : Memory) : Prop :=
  m.Pairwise (fun a b => a.1 < b.1) ∧ ∀ c ∈ m, c.1 < bufLen ∧ c.2 = 1

/-- `BUF[i]`, one bit, no side effect (20_memory.md R50, R56). -/
def State.slot (s : State) (i : Nat) : Bool := s.buf.readSlot i

/-- `BUF[i] <- b`. A slot outside 0..60 does not exist (20_memory.md R54; notes/assumptions/6.md). -/
def storeSlot (i : Nat) (b : Bool) (s : State) : Result :=
  if i < bufLen then .next { s with buf := s.buf.writeSlot i b } else .fault .noSuchSlot

/-! ### Responses (30_encoding.md R72, 60_exceptions.md R210) -/

/-- `respond(v)`: `v` on the result port with `ERR` = 0 (00_scope.md R10). -/
def respond (v : Word) (s : State) : State := { s with result := v, err := false }

/-- `raise Illegal`: `RESULT` = 0, `ERR` = 1, no state element written (60_exceptions.md R210). It is the
block's only error; there is no trap entry and no trap return (R218, R219). -/
def raiseIllegal (s : State) : State := { s with result := 0, err := true }

/-- `zext_16` of a boolean (30_encoding.md R72). -/
def boolResult (b : Bool) : Word := if b then 1 else 0

/-- `zext_16` of an integer result (30_encoding.md R72). -/
def intResult (n : Int) : Word := BitVec.ofInt 16 n

/-! ### Clearing and reset -/

/-- `clear_state` (10_state.md R33). `POWER_EN` and `EDGE_EN` are not touched. -/
def clearState (s : State) : State :=
  { s with
    lvlPrev := false
    tStartPrev := 0
    tStartCur := 0
    tEnd := 0
    quality := false
    cursor := 0
    tSync := 0
    tExpiry := 0
    buf := [] }

/-- A platform reset has the effect of power-on reset (70_reset_and_hazards.md R240, R241) on every state
element and on the outputs. The input ports belong to the outside and keep their values, but for
`CMD_VALID`, since nothing is issued (notes/assumptions/7.md). -/
def platformReset (s : State) : State :=
  { clearState s with
    powerEn := false
    edgeEn := false
    cmdValid := false
    result := 0
    err := false }

/-! ### Ports (10_state.md R36) -/

/-- `POWER_OUT` equals `POWER_EN` (10_state.md R36, R38). -/
def State.powerOut (s : State) : Bool := s.powerEn

/-- `EDGE_ENABLE` equals `EDGE_EN` (10_state.md R36, R38). -/
def State.edgeEnable (s : State) : Bool := s.edgeEn

/-- The `RESULT` word on an 8-bit transport, low byte first (20_memory.md R53). -/
def State.resultBytes (s : State) : List Byte := [s.result.extractLsb' 0 8, s.result.extractLsb' 8 8]

/-- Takes the next input off the list and puts it on the input ports. They are sampled once, before the
operation, and every line of the operation reads the same sample (10_state.md R37). Without an input,
`CMD_VALID` is 0 and the other ports hold (notes/assumptions/2.md). -/
def sampleInputs (s : State) : State :=
  match s.pending with
  | [] => { s with cmdValid := false }
  | .issue _ cmd now line :: rest =>
    { s with cmdValid := true, cmd := cmd, now := now, line := line, pending := rest }
  | .idle now line :: rest => { s with cmdValid := false, now := now, line := line, pending := rest }
  | .reset :: rest => { platformReset s with pending := rest }

/-- Makes the consumer issue the word `cmd` next, at the time and the line level that now stand on the ports,
before every other input to come. -/
def issueNext (cmd : Word) (s : State) : State :=
  { s with pending := .issue .consumer cmd s.now s.line :: s.pending }

end Sys2Proof.Machine
end

