-- ==== Sys2Proof/Machine/Flags.lean ====
section
/-! DEFINITION. The block's only flag, QUALITY (10_state.md R26, R31), and the comparisons that decide
it: the two noise rules of EDGE and the silence test of HAS_SIGNAL. Every comparison is an unsigned
comparison of TS_WIDTH-bit values (00_scope.md R11). -/

namespace Sys2Proof.Machine

/-- `QUALITY <- q`. -/
def setQuality (q : Bool) (s : State) : State := { s with quality := q }

/-- `gap(NOW, T_START_PREV)` as a number of milliseconds. -/
def sinceStartPrev (s : State) : Nat := (gap s.now s.tStartPrev).toNat

/-- `gap(NOW, T_START_CUR)` as a number of milliseconds. -/
def sinceStartCur (s : State) : Nat := (gap s.now s.tStartCur).toNat

/-- Noise rule 1, the minimum inter-pulse distance (40_edge_classifier.md R101). -/
def noiseRule1 (s : State) : Bool := decide (sinceStartPrev s < minInterpulseMs)

/-- Noise rule 2, the minimum pulse width (40_edge_classifier.md R102). -/
def noiseRule2 (s : State) : Bool := decide (sinceStartCur s < minPulseMs)

/-- The line has been silent longer than `MAX_GAP_MS` (41_queries.md R140). -/
def silentTooLong (s : State) : Bool := decide (maxGapMs < sinceStartCur s)

end Sys2Proof.Machine
end

