-- ==== Sys2Proof/Machine/Edge.lean ====
section
/-! DEFINITION. The edge classifier, EDGE (40_edge_classifier.md R100 to R114). -/

namespace Sys2Proof.Machine

/-- A rejected edge changes only the quality flag (40_edge_classifier.md R101, R102, R114). -/
def rejectEdge (s : State) : State := respond 0 (setQuality false s)

/-- A rising edge shifts the pulse starts (40_edge_classifier.md R105). -/
def shiftPulseStart (s : State) : State := { s with tStartPrev := s.tStartCur, tStartCur := s.now }

/-- The gap between the two pulse starts, in milliseconds (40_edge_classifier.md R106). -/
def pulseStartGap (s : State) : Nat := (gap s.tStartCur s.tStartPrev).toNat

/-- A minute sync (40_edge_classifier.md R106). -/
def minuteSync (s : State) : State :=
  { s with cursor := 0, tSync := s.now, tExpiry := addMs s.now staleMs }

/-- `(CURSOR + 1) mod 61` (40_edge_classifier.md R107). -/
def nextCursor (c : BitVec 6) : BitVec 6 := BitVec.ofNat 6 ((c.toNat + 1) % bufLen)

/-- A second tick (40_edge_classifier.md R107). -/
def secondTick (s : State) : State := { s with cursor := nextCursor s.cursor }

/-- What a rising edge does after the shift: a sync if the gap exceeds `SYNC_MS`, else a tick. -/
def syncOrTick (s : State) : State := if syncMs < pulseStartGap s then minuteSync s else secondTick s

/-- An accepted rising edge (40_edge_classifier.md R105 to R107). -/
def risingEdge (s : State) : State := syncOrTick (shiftPulseStart s)

/-- Whether the pulse that ends now is long, wider than `SPLIT_MS` (40_edge_classifier.md R109). -/
def pulseIsLong (s : State) : Bool := decide (splitMs < sinceStartCur s)

/-- An accepted falling edge: the pulse end, then the slot at the cursor (40_edge_classifier.md R109). -/
def fallingEdge (s : State) : Result :=
  storeSlot s.cursor.toNat (pulseIsLong s) { s with tEnd := s.now }

/-- Classification by the previous level and the level now (40_edge_classifier.md R104, R110). -/
def classifyEdge (s : State) : Result :=
  match s.lvlPrev, s.line with
  | false, true => .next (risingEdge s)
  | true, false => fallingEdge s
  | false, false => .next s
  | true, true => .next s

/-- Every accepted edge ends with `LVL_PREV <- LINE` and the response (40_edge_classifier.md R111). -/
def finishEdge (s : State) : State := respond 0 { s with lvlPrev := s.line }

/-- `EDGE` (40_edge_classifier.md R100): the gate (R112), noise rules 1 and 2, acceptance (R103),
classification, in this order (60_exceptions.md R215). -/
def execEdge (s : State) : Result :=
  if s.edgeEn = false then .next (respond 0 s)
  else if noiseRule1 s then .next (rejectEdge s)
  else if noiseRule2 s then .next (rejectEdge s)
  else andThen (classifyEdge (setQuality true s)) fun t => .next (finishEdge t)

end Sys2Proof.Machine
end

