-- ==== Sys2Proof/Machine/Lifecycle.lean ====
section
/-! DEFINITION. The lifecycle operations NOP, START, STOP and RESTART (42_lifecycle.md R180 to R185). -/

namespace Sys2Proof.Machine

/-- `NOP`: only the response (42_lifecycle.md R183). -/
def execNop (s : State) : Result := .next (respond 0 s)

/-- `START`: power up, clear, take edges, in the source's order (42_lifecycle.md R180). -/
def execStart (s : State) : Result :=
  let powered := { s with powerEn := true }
  let cleared := clearState powered
  .next (respond 0 { cleared with edgeEn := true })

/-- `STOP`: stop taking edges, clear, power down, in the source's order (42_lifecycle.md R181). -/
def execStop (s : State) : Result :=
  let gated := { s with edgeEn := false }
  let cleared := clearState gated
  .next (respond 0 { cleared with powerEn := false })

/-- `RESTART`: clear only (42_lifecycle.md R182). -/
def execRestart (s : State) : Result := .next (respond 0 (clearState s))

end Sys2Proof.Machine
end

