-- ==== Sys2Proof/Machine/Operands.lean ====
section
/-! DEFINITION. What the operations read: the slot operand of the test port, the xor-fold and the
weighted sums over runs of slots. -/

namespace Sys2Proof.Machine

/-- Whether RDSLOT and WRSLOT may name this slot in this block: there is a test port and `IDX` is 0..60
(43_test_port.md R200, R201; 20_memory.md R54). -/
def slotOperandLegal (idx : BitVec 6) (s : State) : Bool := s.cfg.hasTestPort && slotExists idx

/-- `xor_fold` over the `n` slots from `i` on (00_scope.md R10). -/
def xorFold (m : Memory) (i : Nat) : Nat → Bool
  | 0 => false
  | n + 1 => xor (m.readSlot i) (xorFold m (i + 1) n)

/-- The weighted sum of the slots from `i` on, one weight for each (41_queries.md R160, R161). -/
def weightedSum (m : Memory) (i : Nat) : List Int → Int
  | [] => 0
  | k :: ks => k * ((m.readSlot i).toNat : Int) + weightedSum m (i + 1) ks

end Sys2Proof.Machine
end

