-- ==== Sys2Proof/Machine/Queries.lean ====
section
/-! DEFINITION. The queries HAS_SIGNAL and IS_VALID with the parity validator, and the time accessors
over the BCD renderer (41_queries.md R140 to R168). None is gated by EDGE_EN or POWER_EN. -/

namespace Sys2Proof.Machine

/-! ### Signal presence -/

/-- `HAS_SIGNAL` (41_queries.md R140): the lazy loss check, then the flag it may just have cleared. -/
def execHasSignal (s : State) : Result :=
  let checked := if silentTooLong s then setQuality false s else s
  .next (respond (boolResult checked.quality) checked)

/-! ### Validity -/

/-- `frame_ok()`: the two markers and the two parities (41_queries.md R150 to R154). -/
def frameOk (m : Memory) : Bool :=
  (m.readSlot 0 == false) && (m.readSlot 20 == true) && (xorFold m 21 7 == m.readSlot 28) &&
    (xorFold m 29 6 == m.readSlot 35)

/-- The four conditions of 41_queries.md R145 to R148 and R150. -/
def frameValid (s : State) : Bool :=
  decide (s.tSync ≠ 0) && decide (s.now < s.tExpiry) && decide (validCursorMin ≤ s.cursor.toNat) &&
    frameOk s.buf

/-- `IS_VALID` (41_queries.md R145). -/
def execIsValid (s : State) : Result := .next (respond (boolResult (frameValid s)) s)

/-! ### The renderer, on mathematical integers -/

/-- `minute_field()`: slots 21 to 27 (41_queries.md R160). -/
def minuteField (m : Memory) : Int := weightedSum m 21 [1, 2, 4, 8, 10, 20, 40]

/-- `hour_field()`: slots 29 to 34 (41_queries.md R161). -/
def hourField (m : Memory) : Int := weightedSum m 29 [1, 2, 4, 8, 10, 20]

/-- `minute_of_day()` with its offset of −1 and its wrap (41_queries.md R162, R163). -/
def minuteOfDay (m : Memory) : Int :=
  let d := hourField m * 60 + minuteField m - 1
  if d < 0 then 23 * 60 + 59 else d

/-- `GET_SECOND` returns the frame cursor (41_queries.md R167). -/
def execGetSecond (s : State) : Result := .next (respond (s.cursor.setWidth 16) s)

/-- `GET_MINUTE` (41_queries.md R166). -/
def execGetMinute (s : State) : Result :=
  .next (respond (intResult ((minuteOfDay s.buf + 60) % 60)) s)

/-- `GET_HOUR` (41_queries.md R165). -/
def execGetHour (s : State) : Result :=
  .next (respond (intResult (minuteOfDay s.buf / 60 % 24)) s)

/-- `GET_MINUTE_OF_DAY` (41_queries.md R164). -/
def execGetMinuteOfDay (s : State) : Result := .next (respond (intResult (minuteOfDay s.buf)) s)

end Sys2Proof.Machine
end

