-- ==== Sys2Proof/Machine/TestPort.lean ====
section
/-! DEFINITION. The test port, RDSLOT and WRSLOT (43_test_port.md R200, R201). A slot operand that the
block does not have makes the operation illegal (20_memory.md R54); the decoder refuses such a word
already, and the meanings say the same of the instruction (notes/assumptions/4.md). -/

namespace Sys2Proof.Machine

/-- `RDSLOT idx` (43_test_port.md R200). -/
def execRdslot (idx : BitVec 6) (s : State) : Result :=
  if slotOperandLegal idx s then .next (respond (boolResult (s.slot idx.toNat)) s)
  else .next (raiseIllegal s)

/-- `WRSLOT idx, v` (43_test_port.md R201). -/
def execWrslot (idx : BitVec 6) (v : Bool) (s : State) : Result :=
  if slotOperandLegal idx s then
    andThen (storeSlot idx.toNat v s) fun t => .next (respond 0 t)
  else .next (raiseIllegal s)

end Sys2Proof.Machine
end

