-- ==== Sys2Proof/Machine/Dispatch.lean ====
section
/-! DEFINITION. One arm for each operation of 30_encoding.md R73. -/

namespace Sys2Proof.Machine

def exec (i : Instr) (s : State) : Host.Outcome State Fault Refusal :=
  match i with
  | .nop => Sys2Proof.Machine.execNop s
  | .edge => Sys2Proof.Machine.execEdge s
  | .start => Sys2Proof.Machine.execStart s
  | .stop => Sys2Proof.Machine.execStop s
  | .restart => Sys2Proof.Machine.execRestart s
  | .hasSignal => Sys2Proof.Machine.execHasSignal s
  | .isValid => Sys2Proof.Machine.execIsValid s
  | .getSecond => Sys2Proof.Machine.execGetSecond s
  | .getMinute => Sys2Proof.Machine.execGetMinute s
  | .getHour => Sys2Proof.Machine.execGetHour s
  | .getMinuteOfDay => Sys2Proof.Machine.execGetMinuteOfDay s
  | .rdslot idx => Sys2Proof.Machine.execRdslot idx s
  | .wrslot idx v => Sys2Proof.Machine.execWrslot idx v s

end Sys2Proof.Machine
end

