-- ==== Sys2Proof/Machine/Step.lean ====
section
/-! DEFINITION. One step: the next input is sampled, and if it issues a word, the word is decoded and
performed, or answered as illegal (60_exceptions.md R210). The block fetches nothing (10_state.md R21). -/

namespace Sys2Proof.Machine

/-- `step(CMD)` of 60_exceptions.md R210. Illegality is decided before anything is performed (R216). The
response to an illegal word is taken as the block's own response, not as a fault
(notes/assumptions/4.md). -/
def perform (s : State) : Host.Outcome State Fault Refusal :=
  match decode s.cfg.hasTestPort s.cmd with
  | .ok i => exec i s
  | .error _ => .next (raiseIllegal s)

/-- One step. Where nothing is issued, the outputs hold the last response (70_reset_and_hazards.md R240). -/
def step (s : State) : Host.Outcome State Fault Refusal :=
  if (sampleInputs s).cmdValid then perform (sampleInputs s) else .next (sampleInputs s)

/-- The state in which the next step performs the word `w` (notes/assumptions/2.md). -/
def State.withFetchWord (s : State) (nbits w : Nat) : State :=
  issueNext (BitVec.ofNat 16 (w % 2 ^ nbits)) s

end Sys2Proof.Machine
end

