-- ==== Sys2Proof/Safety.lean ====
section
/-! DEFINITION. What a legal state of the block is, and the duties of the parties around it, in the terms
that the statements use. The step enforces none of the duties (60_exceptions.md R227). -/

namespace Sys2Proof.Machine

/-! ### Legal states -/

/-- `CURSOR` is in 0..60 (10_state.md R27). -/
abbrev State.cursorOk (s : State) : Prop := s.cursor.toNat ≤ 60

/-- The invariant of 10_state.md R28: both sync fields are unset, or the expiry lies the staleness window
after the sync. -/
abbrev State.expiryOk (s : State) : Prop :=
  (s.tSync = 0 ∧ s.tExpiry = 0) ∨ s.tExpiry = addMs s.tSync staleMs

/-- What stands on the output ports: an error carries the result 0 (60_exceptions.md R210), and no result
exceeds 2784 (30_encoding.md R72). -/
abbrev State.responseOk (s : State) : Prop :=
  (s.err = true → s.result = 0) ∧ s.result.toNat ≤ 2784

/-- A legal state: the clock is wide enough (00_scope.md R8), the cursor names a slot, the sync fields
agree, the buffer is in its canonical form, and the outputs are a response. -/
abbrev State.Inv (s : State) : Prop :=
  s.cfg.ok ∧ s.cursorOk ∧ s.expiryOk ∧ s.buf.wf ∧ s.responseOk

/-! ### The clock's duty (60_exceptions.md R229) -/

/-- The inputs come on a clock that shows `t` now and does not wrap before the last of them. -/
def clockForward {w : Nat} (t : Timestamp w) : List (Input w) → Bool
  | [] => true
  | .issue _ _ now _ :: rest => decide (t ≤ now) && clockForward now rest
  | .idle now _ :: rest => decide (t ≤ now) && clockForward now rest
  | .reset :: rest => clockForward t rest

/-- `T_START_PREV`, `T_START_CUR`, `T_END` and `T_SYNC` do not lie in the future, the pulse starts are in
order, and the inputs to come keep to a clock that does not wrap. `T_EXPIRY`, which a sync puts ahead of
`NOW` (40_edge_classifier.md R106), is not among them. -/
abbrev State.timeOrdered (s : State) : Prop :=
  s.tStartPrev ≤ s.tStartCur ∧ s.tStartCur ≤ s.now ∧ s.tEnd ≤ s.now ∧ s.tSync ≤ s.now ∧
    clockForward s.now s.pending = true

/-! ### The acceptance of an edge (40_edge_classifier.md R103) -/

/-- An EDGE performed in this state is delivered and passes both noise rules. -/
abbrev State.edgeAccepted (s : State) : Prop :=
  s.edgeEn = true ∧ 700 ≤ (s.now - s.tStartPrev).toNat ∧ 50 ≤ (s.now - s.tStartCur).toNat

end Sys2Proof.Machine
end

