-- ==== Sys2Proof/Certificates/Slice0/Obligations.lean ====
section
/-! DEFINITION. The statements for the provers. Numbers of the spec are written out as literals here, so
that a statement can be held beside its rule without the model's constants. -/

namespace Sys2Proof.Machine

/-! ### Terms of the statements, written from the rules and not from the meanings -/

/-- A word that is illegal by the table of 60_exceptions.md R210, read off its bits as a number. -/
def wordIsIllegal (hasTestPort : Bool) (w : Word) : Prop :=
  13 ≤ w.toNat % 16 ∨
  w.toNat / 32 % 8 ≠ 0 ∨
  w.toNat / 16384 ≠ 0 ∨
  (w.toNat % 16 ≤ 10 ∧ (w.toNat / 16 % 2 ≠ 0 ∨ w.toNat / 256 % 64 ≠ 0)) ∨
  (w.toNat % 16 = 11 ∧ w.toNat / 16 % 2 ≠ 0) ∨
  ((w.toNat % 16 = 11 ∨ w.toNat % 16 = 12) ∧ (61 ≤ w.toNat / 256 % 64 ∨ hasTestPort = false))

/-- The operations that take no operand, by `OP` (30_encoding.md R73). -/
def plainInstrs : List Instr :=
  [.nop, .edge, .start, .stop, .restart, .hasSignal, .isValid, .getSecond, .getMinute, .getHour,
    .getMinuteOfDay]

/-- A slot as the number 0 or 1. -/
def slotNum (s : State) (i : Nat) : Int := (s.slot i).toNat

/-- `minute_field()` as 41_queries.md R160 writes it. -/
def minuteFieldNum (s : State) : Int :=
  1 * slotNum s 21 + 2 * slotNum s 22 + 4 * slotNum s 23 + 8 * slotNum s 24 +
    10 * slotNum s 25 + 20 * slotNum s 26 + 40 * slotNum s 27

/-- `hour_field()` as 41_queries.md R161 writes it. -/
def hourFieldNum (s : State) : Int :=
  1 * slotNum s 29 + 2 * slotNum s 30 + 4 * slotNum s 31 + 8 * slotNum s 32 +
    10 * slotNum s 33 + 20 * slotNum s 34

/-- `minute_of_day()` as 41_queries.md R162 writes it. -/
def minuteOfDayNum (s : State) : Int :=
  if hourFieldNum s * 60 + minuteFieldNum s - 1 < 0 then 1439
  else hourFieldNum s * 60 + minuteFieldNum s - 1

/-- `frame_ok()` as 41_queries.md R150 writes it. -/
def frameGood (s : State) : Prop :=
  s.slot 0 = false ∧ s.slot 20 = true ∧
  xor (s.slot 21) (xor (s.slot 22) (xor (s.slot 23) (xor (s.slot 24) (xor (s.slot 25)
    (xor (s.slot 26) (s.slot 27)))))) = s.slot 28 ∧
  xor (s.slot 29) (xor (s.slot 30) (xor (s.slot 31) (xor (s.slot 32) (xor (s.slot 33)
    (s.slot 34))))) = s.slot 35

end Sys2Proof.Machine

open Sys2Proof Sys2Proof.Machine

/-! ### Encoding -/

/-- 30_encoding.md R73: sample words, written out from the table. -/
def Obligations.OpcodeMapWordsDecode : Prop :=
  (∀ htp, decode htp 0x0000 = .ok .nop ∧ decode htp 0x0001 = .ok .edge ∧
    decode htp 0x0002 = .ok .start ∧ decode htp 0x0003 = .ok .stop ∧
    decode htp 0x0004 = .ok .restart ∧ decode htp 0x0005 = .ok .hasSignal ∧
    decode htp 0x0006 = .ok .isValid ∧ decode htp 0x0007 = .ok .getSecond ∧
    decode htp 0x0008 = .ok .getMinute ∧ decode htp 0x0009 = .ok .getHour ∧
    decode htp 0x000A = .ok .getMinuteOfDay) ∧
  decode true 0x3C0B = .ok (.rdslot 60) ∧ decode true 0x140B = .ok (.rdslot 20) ∧
  decode true 0x141C = .ok (.wrslot 20 true) ∧ decode true 0x1C0C = .ok (.wrslot 28 false)

/-- 30_encoding.md R70 to R75: every operation that exists is read back from its own word. -/
def Obligations.DecodeOfEncodeIsTheInstruction : Prop :=
  ∀ (htp : Bool) (i : Instr), i.wellFormed htp = true → decode htp (encode i) = .ok i

/-- 30_encoding.md R70 to R75, the other direction: each legal word is the word of one operation that
exists, so no bit of a word is dropped. -/
def Obligations.EncodeOfDecodeIsTheWord : Prop :=
  ∀ (htp : Bool) (w : Word) (i : Instr), decode htp w = .ok i → encode i = w ∧ i.wellFormed htp = true

/-- 30_encoding.md R74: the match, mask and range of every operation. -/
def Obligations.EachWordMatchesItsMaskAndRange : Prop :=
  ∀ w : Word,
    (∀ (n : Nat) (i : Instr), plainInstrs[n]? = some i →
      (decode true w = .ok i ↔ w &&& 0xFFFF = BitVec.ofNat 16 n)) ∧
    (∀ idx : BitVec 6, decode true w = .ok (.rdslot idx) ↔
      w &&& 0xC0FF = 0x000B ∧ w.toNat / 256 % 64 = idx.toNat ∧ idx.toNat ≤ 60) ∧
    (∀ (idx : BitVec 6) (v : Bool), decode true w = .ok (.wrslot idx v) ↔
      w &&& 0xC0EF = 0x000C ∧ w.toNat / 256 % 64 = idx.toNat ∧ idx.toNat ≤ 60 ∧
        w.toNat / 16 % 2 = v.toNat)

/-- 30_encoding.md R75 and R77, with the causes of 60_exceptions.md R210: the decoder refuses exactly the
illegal words. -/
def Obligations.DecoderRefusesExactlyTheIllegalWords : Prop :=
  ∀ (htp : Bool) (w : Word), (∃ e, decode htp w = .error e) ↔ wordIsIllegal htp w

/-- 30_encoding.md R74 and R75, with the sentence of R76 that the spec derives from them: 11 plain
words, 61 RDSLOT words and 122 WRSLOT words are legal with a test port, and the 11 plain words without one. -/
def Obligations.LegalWordCounts : Prop :=
  ∃ plain rd wr : List Word,
    plain.length = 11 ∧ rd.length = 61 ∧ wr.length = 122 ∧
    (plain ++ rd ++ wr).length = 194 ∧ (plain ++ rd ++ wr).Nodup ∧
    (∀ w, w ∈ plain ↔ ∃ i ∈ plainInstrs, decode true w = .ok i) ∧
    (∀ w, w ∈ rd ↔ ∃ idx, decode true w = .ok (.rdslot idx)) ∧
    (∀ w, w ∈ wr ↔ ∃ idx v, decode true w = .ok (.wrslot idx v)) ∧
    (∀ w, w ∈ plain ++ rd ++ wr ↔ ∃ i, decode true w = .ok i) ∧
    (∀ w, w ∈ plain ↔ ∃ i, decode false w = .ok i)

/-- 20_memory.md R53: on an 8-bit transport the low byte of the command word goes first, and reading an
operation takes exactly its two bytes. -/
def Obligations.CommandBytesGoLowByteFirst : Prop :=
  ∀ (htp : Bool) (i : Instr) (rest : List Byte), i.wellFormed htp = true →
    (∃ lo hi : Byte, encodeBytes i = [lo, hi] ∧
      (encode i).toNat = 256 * hi.toNat + lo.toNat) ∧
    decodeBytes htp (encodeBytes i ++ rest) = .ok (i, rest)

/-! ### The step -/

/-- 60_exceptions.md R210: where the next input issues a word that decodes to an operation, a step samples
the input and performs that operation. That the inputs to come are a list is the model's choice
(notes/assumptions/2.md), here and wherever a statement speaks of `pending`. -/
def Obligations.StepPerformsTheDecodedOperation : Prop :=
  ∀ (s : State) (a : Agent) (c : Word) (n : Timestamp s.cfg.tsWidth) (l : Bool)
    (rest : List (Input s.cfg.tsWidth)) (i : Instr),
    s.pending = .issue a c n l :: rest → decode s.cfg.hasTestPort c = .ok i →
    step s = exec i { s with cmdValid := true, cmd := c, now := n, line := l, pending := rest }

/-- 60_exceptions.md R210 and R216: an illegal word, by the table of R210, writes no state element, and
answers `RESULT` = 0 and `ERR` = 1. R210 lets `ERR` = 1 be a response or a fault; that it is the response
is the model's choice (notes/assumptions/4.md). -/
def Obligations.IllegalWordAnswersErrAndWritesNothing : Prop :=
  ∀ (s : State) (a : Agent) (c : Word) (n : Timestamp s.cfg.tsWidth) (l : Bool)
    (rest : List (Input s.cfg.tsWidth)),
    s.pending = .issue a c n l :: rest → wordIsIllegal s.cfg.hasTestPort c →
    step s = .next { s with
      cmdValid := true, cmd := c, now := n, line := l, pending := rest, result := 0, err := true }

/-- 30_encoding.md R72 and 60_exceptions.md R212: a legal word completes, without an error, whatever the
values in the state, as long as the cursor is in its range. -/
def Obligations.LegalWordCompletesWithoutErr : Prop :=
  ∀ (s : State) (a : Agent) (c : Word) (n : Timestamp s.cfg.tsWidth) (l : Bool)
    (rest : List (Input s.cfg.tsWidth)),
    s.pending = .issue a c n l :: rest → ¬ wordIsIllegal s.cfg.hasTestPort c → s.cursorOk →
    ∃ t, step s = .next t ∧ t.err = false

/-- The operations come one at a time in one order (20_memory.md R59). The rest is the model's choice: that
operations, idle samples and resets stand in one list of which each step takes exactly the first entry
(notes/assumptions/2.md), and that the parameters are data that no step writes (notes/assumptions/1.md). -/
def Obligations.StepTakesExactlyTheNextInput : Prop :=
  ∀ (s t : State) (x : Input s.cfg.tsWidth) (rest : List (Input s.cfg.tsWidth)),
    s.pending = x :: rest → step s = .next t → t.cfg = s.cfg ∧ HEq t.pending rest

/-- 60_exceptions.md R220: the block does not check which agent issued an operation. -/
def Obligations.TheIssuingAgentIsNotChecked : Prop :=
  ∀ (s : State) (a b : Agent) (c : Word) (n : Timestamp s.cfg.tsWidth) (l : Bool)
    (rest : List (Input s.cfg.tsWidth)),
    step { s with pending := .issue a c n l :: rest } =
      step { s with pending := .issue b c n l :: rest }

/-- 70_reset_and_hazards.md R240: the power-on values, and the outputs, which hold the last response while
nothing is issued; no state element changes then either (00_scope.md R6). What stands on the input ports then is left open,
but for the `NOW` and `LINE` that an idle sample brings. That nothing issued is an empty list or an idle
sample is the model's choice (notes/assumptions/2.md). -/
def Obligations.PowerOnValuesAndHeldOutputs : Prop :=
  State.reset.lvlPrev = false ∧ State.reset.tStartPrev = 0 ∧ State.reset.tStartCur = 0 ∧
  State.reset.tEnd = 0 ∧ State.reset.quality = false ∧ State.reset.cursor = 0 ∧
  State.reset.tSync = 0 ∧ State.reset.tExpiry = 0 ∧ (∀ i, State.reset.slot i = false) ∧
  State.reset.powerEn = false ∧ State.reset.edgeEn = false ∧
  State.reset.result = 0 ∧ State.reset.err = false ∧
  (∀ s : State, s.pending = [] → ∃ (c : Word) (v : Bool) (n : Timestamp s.cfg.tsWidth) (l : Bool),
    step s = .next { s with cmd := c, cmdValid := v, now := n, line := l }) ∧
  (∀ (s : State) (n : Timestamp s.cfg.tsWidth) (l : Bool) (rest : List (Input s.cfg.tsWidth)),
    s.pending = .idle n l :: rest →
    ∃ (c : Word) (v : Bool),
      step s = .next { s with cmd := c, cmdValid := v, now := n, line := l, pending := rest })

/-- 70_reset_and_hazards.md R241: a platform reset puts every state element and both outputs at their
power-on values. What stands on the input ports is left open. That a reset is one of the inputs to come is
the model's choice (notes/assumptions/7.md), and so is that a step takes it off their list and keeps the
rest (notes/assumptions/2.md). -/
def Obligations.PlatformResetRestoresPowerOnValues : Prop :=
  ∀ (s : State) (rest : List (Input s.cfg.tsWidth)), s.pending = .reset :: rest →
    ∃ (m : Memory) (c : Word) (v : Bool) (n : Timestamp s.cfg.tsWidth) (l : Bool),
      (∀ i, m.readSlot i = false) ∧
      step s = .next { s with
        lvlPrev := false, tStartPrev := 0, tStartCur := 0, tEnd := 0, quality := false, cursor := 0,
        tSync := 0, tExpiry := 0, buf := m, powerEn := false, edgeEn := false,
        cmd := c, cmdValid := v, now := n, line := l, result := 0, err := false, pending := rest }

/-! ### Lifecycle -/

/-- 42_lifecycle.md R183. -/
def Obligations.NopOnlyResponds : Prop :=
  (∀ htp, decode htp 0x0000 = .ok .nop) ∧
  ∀ s : State, exec .nop s = .next { s with result := 0, err := false }

/-- 42_lifecycle.md R180 with clear_state of 10_state.md R33. -/
def Obligations.StartPowersUpClearsAndTakesEdges : Prop :=
  (∀ htp, decode htp 0x0002 = .ok .start) ∧
  ∀ s : State, ∃ m : Memory, (∀ i, m.readSlot i = false) ∧
    exec .start s = .next { s with
      lvlPrev := false, tStartPrev := 0, tStartCur := 0, tEnd := 0, quality := false, cursor := 0,
      tSync := 0, tExpiry := 0, buf := m, powerEn := true, edgeEn := true, result := 0, err := false }

/-- 42_lifecycle.md R181 with clear_state of 10_state.md R33. -/
def Obligations.StopDropsEdgesClearsAndPowersDown : Prop :=
  (∀ htp, decode htp 0x0003 = .ok .stop) ∧
  ∀ s : State, ∃ m : Memory, (∀ i, m.readSlot i = false) ∧
    exec .stop s = .next { s with
      lvlPrev := false, tStartPrev := 0, tStartCur := 0, tEnd := 0, quality := false, cursor := 0,
      tSync := 0, tExpiry := 0, buf := m, powerEn := false, edgeEn := false, result := 0, err := false }

/-- 42_lifecycle.md R182 with clear_state of 10_state.md R33. -/
def Obligations.RestartOnlyClears : Prop :=
  (∀ htp, decode htp 0x0004 = .ok .restart) ∧
  ∀ s : State, ∃ m : Memory, (∀ i, m.readSlot i = false) ∧
    exec .restart s = .next { s with
      lvlPrev := false, tStartPrev := 0, tStartCur := 0, tEnd := 0, quality := false, cursor := 0,
      tSync := 0, tExpiry := 0, buf := m, result := 0, err := false }

/-- 42_lifecycle.md R184, its sentence derived from R180 to R182: each completes in one step,
and two in a row leave the same state as one. -/
def Obligations.LifecycleOperationsAreIdempotent : Prop :=
  ∀ s : State,
    (∃ t, exec .start s = .next t ∧ exec .start t = .next t) ∧
    (∃ t, exec .stop s = .next t ∧ exec .stop t = .next t) ∧
    (∃ t, exec .restart s = .next t ∧ exec .restart t = .next t)

/-- 42_lifecycle.md R181, its corner cases: after STOP an EDGE changes nothing and every query answers from
the cleared state, at any time `n` and line level `l`. -/
def Obligations.AfterStopEveryQueryAnswersCleared : Prop :=
  ∀ (s t : State) (n : Timestamp t.cfg.tsWidth) (l : Bool), exec .stop s = .next t →
    exec .edge { t with now := n, line := l } =
      .next { t with now := n, line := l, result := 0, err := false } ∧
    exec .isValid { t with now := n, line := l } =
      .next { t with now := n, line := l, result := 0, err := false } ∧
    exec .getSecond { t with now := n, line := l } =
      .next { t with now := n, line := l, result := 0, err := false } ∧
    exec .getMinuteOfDay { t with now := n, line := l } =
      .next { t with now := n, line := l, result := 1439, err := false } ∧
    exec .getHour { t with now := n, line := l } =
      .next { t with now := n, line := l, result := 23, err := false } ∧
    exec .getMinute { t with now := n, line := l } =
      .next { t with now := n, line := l, result := 59, err := false } ∧
    exec .hasSignal { t with now := n, line := l } =
      .next { t with now := n, line := l, result := 0, err := false }

/-! ### EDGE -/

/-- 40_edge_classifier.md R112. -/
def Obligations.EdgeIsDroppedWhileNotEnabled : Prop :=
  ∀ s : State, s.edgeEn = false → exec .edge s = .next { s with result := 0, err := false }

/-- 40_edge_classifier.md R101. -/
def Obligations.NoiseRuleOneRejectsTheEdge : Prop :=
  ∀ s : State, s.edgeEn = true → (s.now - s.tStartPrev).toNat < 700 →
    exec .edge s = .next { s with quality := false, result := 0, err := false }

/-- 40_edge_classifier.md R102: an edge that rule 1 did not reject. -/
def Obligations.NoiseRuleTwoRejectsTheEdge : Prop :=
  ∀ s : State, s.edgeEn = true → 700 ≤ (s.now - s.tStartPrev).toNat →
    (s.now - s.tStartCur).toNat < 50 →
    exec .edge s = .next { s with quality := false, result := 0, err := false }

/-- 40_edge_classifier.md R105 and R106, with R103 and R111. -/
def Obligations.RisingEdgeAfterALongGapSyncs : Prop :=
  ∀ s : State, s.edgeAccepted → s.lvlPrev = false → s.line = true →
    1500 < (s.now - s.tStartCur).toNat →
    exec .edge s = .next { s with
      quality := true, tStartPrev := s.tStartCur, tStartCur := s.now, cursor := 0, tSync := s.now,
      tExpiry := s.now + BitVec.ofNat s.cfg.tsWidth 300000, lvlPrev := true, result := 0, err := false }

/-- 40_edge_classifier.md R105 and R107, with R103 and R111. -/
def Obligations.RisingEdgeAfterAShortGapTicks : Prop :=
  ∀ s : State, s.edgeAccepted → s.lvlPrev = false → s.line = true →
    (s.now - s.tStartCur).toNat ≤ 1500 →
    exec .edge s = .next { s with
      quality := true, tStartPrev := s.tStartCur, tStartCur := s.now,
      cursor := BitVec.ofNat 6 ((s.cursor.toNat + 1) % 61), lvlPrev := true, result := 0, err := false }

/-- 40_edge_classifier.md R109, with R103 and R111: the slot at the cursor takes the pulse's class, and
every other slot reads as before. -/
def Obligations.FallingEdgeStoresThePulseClass : Prop :=
  ∀ s : State, s.edgeAccepted → s.cursorOk → s.lvlPrev = true → s.line = false →
    ∃ m : Memory,
      exec .edge s = .next { s with
        quality := true, tEnd := s.now, buf := m, lvlPrev := false, result := 0, err := false } ∧
      (m.readSlot s.cursor.toNat = true ↔ 180 < (s.now - s.tStartCur).toNat) ∧
      ∀ a, a ≠ s.cursor.toNat → m.readSlot a = s.buf.readSlot a

/-- 40_edge_classifier.md R110, with R103 and R111. -/
def Obligations.SameLevelEdgeOnlySetsQuality : Prop :=
  ∀ s : State, s.edgeAccepted → s.line = s.lvlPrev →
    exec .edge s = .next { s with quality := true, lvlPrev := s.line, result := 0, err := false }

/-- 60_exceptions.md R212 for EDGE, with its frame: an EDGE completes from every state whose cursor is in
its range, and it never writes the enables, the input ports or the inputs to come. Only an accepted falling
edge writes a slot, the one at `CURSOR` (20_memory.md R51), and the pulse end; only an accepted rising edge
writes the pulse starts, the cursor and the sync fields; a dropped or rejected edge leaves the level. -/
def Obligations.EdgeAlwaysCompletesWithinItsFrame : Prop :=
  ∀ s : State, s.cursorOk →
    ∃ (lv q : Bool) (tp tc te ts tx : Timestamp s.cfg.tsWidth) (c : BitVec 6) (m : Memory),
      exec .edge s = .next { s with
        lvlPrev := lv, tStartPrev := tp, tStartCur := tc, tEnd := te, quality := q, cursor := c,
        tSync := ts, tExpiry := tx, buf := m, result := 0, err := false } ∧
      (∀ a, a ≠ s.cursor.toNat → m.readSlot a = s.buf.readSlot a) ∧
      (¬ (s.edgeAccepted ∧ s.lvlPrev = true ∧ s.line = false) → m = s.buf ∧ te = s.tEnd) ∧
      (¬ (s.edgeAccepted ∧ s.lvlPrev = false ∧ s.line = true) →
        tp = s.tStartPrev ∧ tc = s.tStartCur ∧ c = s.cursor ∧ ts = s.tSync ∧ tx = s.tExpiry) ∧
      (¬ s.edgeAccepted → lv = s.lvlPrev)

/-- 70_reset_and_hazards.md R251: the first accepted rising edge after a clear, at a time above 1500,
syncs whatever second it is. -/
def Obligations.FirstPulseAfterStartSyncs : Prop :=
  ∀ (s t : State) (n : Timestamp t.cfg.tsWidth), exec .start s = .next t → 1500 < n.toNat →
    exec .edge { t with now := n, line := true } = .next { t with
      now := n, line := true, quality := true, tStartPrev := 0, tStartCur := n, cursor := 0,
      tSync := n, tExpiry := n + BitVec.ofNat t.cfg.tsWidth 300000, lvlPrev := true, result := 0,
      err := false }

/-- 40_edge_classifier.md R113 item 8: on a clock that has not wrapped since the two pulse starts, a rising
edge whose gap exceeds 1500 ms passes both noise rules, so it always syncs. -/
def Obligations.OnAForwardClockALongGapAlwaysSyncs : Prop :=
  ∀ s : State, s.edgeEn = true → s.lvlPrev = false → s.line = true →
    s.tStartPrev ≤ s.tStartCur → s.tStartCur ≤ s.now → s.tStartCur.toNat + 1500 < s.now.toNat →
    exec .edge s = .next { s with
      quality := true, tStartPrev := s.tStartCur, tStartCur := s.now, cursor := 0, tSync := s.now,
      tExpiry := s.now + BitVec.ofNat s.cfg.tsWidth 300000, lvlPrev := true, result := 0, err := false }

/-- 70_reset_and_hazards.md R253: a sync at time zero looks unset, and no IS_VALID, at any later time and
with any buffer and cursor, answers 1 from it. -/
def Obligations.SyncAtTimeZeroLooksUnset : Prop :=
  ∀ s : State, s.cfg.ok → s.edgeAccepted → s.lvlPrev = false → s.line = true → s.now = 0 →
    1500 < (s.now - s.tStartCur).toNat →
    ∃ t, exec .edge s = .next t ∧ t.tSync = 0 ∧ t.tExpiry.toNat = 300000 ∧
      ∀ (n : Timestamp t.cfg.tsWidth) (c : BitVec 6) (m : Memory),
        exec .isValid { t with now := n, cursor := c, buf := m } =
          .next { t with now := n, cursor := c, buf := m, result := 0, err := false }

/-- 40_edge_classifier.md R113 item 6: after a rejected rising edge the falling edge that follows, at any
time `n`, writes no slot and moves no cursor. -/
def Obligations.AfterARejectedRiseTheFallWritesNoSlot : Prop :=
  ∀ (s t : State) (n : Timestamp t.cfg.tsWidth), s.edgeEn = true → s.lvlPrev = false →
    ((s.now - s.tStartPrev).toNat < 700 ∨ (s.now - s.tStartCur).toNat < 50) →
    exec .edge s = .next t →
    ∃ q, exec .edge { t with now := n, line := false } =
      .next { t with now := n, line := false, quality := q, result := 0, err := false } ∧
      t.buf = s.buf ∧ t.cursor = s.cursor

/-- 20_memory.md R59, with R62, which the spec derives from it: of a falling edge's
write and a WRSLOT to one slot the later wins, in both orders. -/
def Obligations.TheLaterSlotWriteWins : Prop :=
  ∀ (s : State) (v : Bool), s.edgeAccepted → s.cursorOk → s.lvlPrev = true → s.line = false →
    s.cfg.hasTestPort = true →
    (∃ t u, exec .edge s = .next t ∧ exec (.wrslot s.cursor v) t = .next u ∧
      u.slot s.cursor.toNat = v) ∧
    (∃ t u, exec (.wrslot s.cursor v) s = .next t ∧ exec .edge t = .next u ∧
      (u.slot s.cursor.toNat = true ↔ 180 < (s.now - s.tStartCur).toNat))

/-! ### HAS_SIGNAL and IS_VALID -/

/-- 41_queries.md R140. -/
def Obligations.HasSignalClearsQualityAfterSilence : Prop :=
  (∀ htp, decode htp 0x0005 = .ok .hasSignal) ∧
  ∀ s : State,
    (2500 < (s.now - s.tStartCur).toNat →
      exec .hasSignal s = .next { s with quality := false, result := 0, err := false }) ∧
    ((s.now - s.tStartCur).toNat ≤ 2500 →
      exec .hasSignal s =
        .next { s with result := if s.quality = true then 1 else 0, err := false })

/-- 70_reset_and_hazards.md R258: a HAS_SIGNAL and a rising EDGE at the same moment `n`, after a long
silence. Both orders are admitted: the first to come decides what HAS_SIGNAL answers, and the quality flag
is 1 in the end either way. -/
def Obligations.HasSignalAndEdgeInEitherOrder : Prop :=
  ∀ (s : State) (a b : Agent) (n : Timestamp s.cfg.tsWidth) (l : Bool)
    (rest : List (Input s.cfg.tsWidth)),
    s.edgeEn = true → s.lvlPrev = false → 700 ≤ (n - s.tStartPrev).toNat →
    2500 < (n - s.tStartCur).toNat →
    (∃ t u, step { s with pending := .issue a 0x0005 n l :: .issue b 0x0001 n true :: rest } = .next t ∧
      t.result = 0 ∧ step t = .next u ∧ u.quality = true) ∧
    (∃ t u, step { s with pending := .issue b 0x0001 n true :: .issue a 0x0005 n l :: rest } = .next t ∧
      step t = .next u ∧ u.result = 1 ∧ u.quality = true)

/-- 41_queries.md R145 to R148 and R150 to R154. -/
def Obligations.IsValidAnswersTheFourConditions : Prop :=
  (∀ htp, decode htp 0x0006 = .ok .isValid) ∧
  ∀ s : State, ∃ r : Word,
    exec .isValid s = .next { s with result := r, err := false } ∧ (r = 0 ∨ r = 1) ∧
    (r = 1 ↔ s.tSync ≠ 0 ∧ s.now.toNat < s.tExpiry.toNat ∧ 35 ≤ s.cursor.toNat ∧ frameGood s)

/-- 41_queries.md R153 and R154, their second sentences: a frame that IS_VALID accepts holds an even
number of ones in slots 21 to 28 and in slots 29 to 35. -/
def Obligations.ValidFrameHasEvenParityFields : Prop :=
  ∀ s t : State, exec .isValid s = .next t → t.result = 1 →
    (List.range' 21 8).countP (fun i => s.slot i) % 2 = 0 ∧
    (List.range' 29 7).countP (fun i => s.slot i) % 2 = 0

/-- 41_queries.md R150 with the parity of R153 and R154: writing the other bit into any one slot that the
validator reads makes a valid frame invalid, and writing any bit into any other slot leaves it valid. -/
def Obligations.AnySingleFlipOfACheckedSlotInvalidates : Prop :=
  ∀ (s t : State) (k : BitVec 6), s.cfg.hasTestPort = true → k.toNat ≤ 60 →
    exec .isValid s = .next t → t.result = 1 →
    ((k.toNat = 0 ∨ (20 ≤ k.toNat ∧ k.toNat ≤ 35)) →
      ∃ u v, exec (.wrslot k (!s.slot k.toNat)) s = .next u ∧ exec .isValid u = .next v ∧
        v.result = 0) ∧
    (((1 ≤ k.toNat ∧ k.toNat ≤ 19) ∨ 36 ≤ k.toNat) →
      ∀ b, ∃ u v, exec (.wrslot k b) s = .next u ∧ exec .isValid u = .next v ∧ v.result = 1)

/-- 41_queries.md R147: on a clock that has not wrapped since the sync, a frame that passes the other
conditions is valid exactly while fewer than 300000 ms have passed. -/
def Obligations.FreshnessLastsThreeHundredThousandMs : Prop :=
  ∀ s : State, s.cfg.ok → s.tSync ≠ 0 → 35 ≤ s.cursor.toNat → frameGood s →
    s.tExpiry = s.tSync + BitVec.ofNat s.cfg.tsWidth 300000 →
    s.tSync.toNat + 300000 < 2 ^ s.cfg.tsWidth → s.tSync ≤ s.now →
    ∃ r : Word, exec .isValid s = .next { s with result := r, err := false } ∧
      (r = 1 ↔ s.now.toNat - s.tSync.toNat < 300000)

/-- 70_reset_and_hazards.md R254 and 41_queries.md R149 item 3: a sync within 300000 ms before the wrap has
a wrapped expiry, so IS_VALID answers 0 until the clock wraps too, and then judges by the other conditions
until the wrapped expiry. -/
def Obligations.ExpiryWrapsBeforeTheClock : Prop :=
  ∀ s : State, s.cfg.ok → 2 ^ s.cfg.tsWidth - 300000 ≤ s.tSync.toNat →
    s.tExpiry = s.tSync + BitVec.ofNat s.cfg.tsWidth 300000 → 35 ≤ s.cursor.toNat → frameGood s →
    s.tExpiry.toNat + 2 ^ s.cfg.tsWidth = s.tSync.toNat + 300000 ∧
    (s.tExpiry ≤ s.now → exec .isValid s = .next { s with result := 0, err := false }) ∧
    (s.now < s.tExpiry → exec .isValid s = .next { s with result := 1, err := false })

/-! ### The time accessors -/

/-- 41_queries.md R167. -/
def Obligations.GetSecondReturnsTheCursor : Prop :=
  (∀ htp, decode htp 0x0007 = .ok .getSecond) ∧
  ∀ s : State, ∃ r : Word, exec .getSecond s = .next { s with result := r, err := false } ∧
    r.toNat = s.cursor.toNat

/-- 41_queries.md R160, R161, R162, R163 and R164. -/
def Obligations.GetMinuteOfDayRendersTheFields : Prop :=
  (∀ htp, decode htp 0x000A = .ok .getMinuteOfDay) ∧
  ∀ s : State, ∃ r : Word, exec .getMinuteOfDay s = .next { s with result := r, err := false } ∧
    (r.toNat : Int) = minuteOfDayNum s ∧ r.toNat ≤ 2784

/-- 41_queries.md R165. -/
def Obligations.GetHourDividesTheMinuteOfDay : Prop :=
  (∀ htp, decode htp 0x0009 = .ok .getHour) ∧
  ∀ s : State, ∃ r : Word, exec .getHour s = .next { s with result := r, err := false } ∧
    (r.toNat : Int) = minuteOfDayNum s / 60 % 24 ∧ r.toNat ≤ 23

/-- 41_queries.md R166. -/
def Obligations.GetMinuteIsTheMinuteOfDayModuloSixty : Prop :=
  (∀ htp, decode htp 0x0008 = .ok .getMinute) ∧
  ∀ s : State, ∃ r : Word, exec .getMinute s = .next { s with result := r, err := false } ∧
    (r.toNat : Int) = (minuteOfDayNum s + 60) % 60 ∧ (r.toNat : Int) = minuteOfDayNum s % 60 ∧
    r.toNat ≤ 59

/-- 90_conflicts.md C3 with 41_queries.md R164 to R166: for fields in range the three accessors agree on one
time of day below 1440. -/
def Obligations.InRangeFieldsGiveOneTimeOfDay : Prop :=
  ∀ s : State, hourFieldNum s ≤ 23 → minuteFieldNum s ≤ 59 →
    ∃ d h m, exec .getMinuteOfDay s = .next d ∧ exec .getHour s = .next h ∧
      exec .getMinute s = .next m ∧ d.result.toNat ≤ 1439 ∧
      h.result.toNat * 60 + m.result.toNat = d.result.toNat

/-- 20_memory.md R51 and 41_queries.md R168: IS_VALID reads the slots 0 and 20 to 35 only, and the renderer
the slots 21 to 27 and 29 to 34 only, and neither the sync fields nor the quality flag. -/
def Obligations.QueriesReadOnlyTheirOwnSlots : Prop :=
  ∀ (s : State) (m : Memory),
    ((∀ k, k = 0 ∨ (20 ≤ k ∧ k ≤ 35) → m.readSlot k = s.slot k) →
      ∃ r, exec .isValid s = .next { s with result := r, err := false } ∧
        exec .isValid { s with buf := m } = .next { s with buf := m, result := r, err := false }) ∧
    ((∀ k, (21 ≤ k ∧ k ≤ 27) ∨ (29 ≤ k ∧ k ≤ 34) → m.readSlot k = s.slot k) →
      ∀ i ∈ [Instr.getMinute, .getHour, .getMinuteOfDay],
      ∀ (ts tx : Timestamp s.cfg.tsWidth) (q : Bool),
        ∃ r, exec i s = .next { s with result := r, err := false } ∧
          exec i { s with buf := m, tSync := ts, tExpiry := tx, quality := q } =
            .next { s with buf := m, tSync := ts, tExpiry := tx, quality := q, result := r, err := false })

/-! ### The test port -/

/-- 43_test_port.md R200: the words of RDSLOT are exactly those of its encoding, in a block with a test
port; any other word with this `OP` is illegal; and the operation answers the slot and writes no state. -/
def Obligations.RdslotReadsTheSlot : Prop :=
  (∀ (htp : Bool) (w : Word) (idx : BitVec 6), decode htp w = .ok (.rdslot idx) ↔
    htp = true ∧ idx.toNat ≤ 60 ∧ w.toNat = 11 + 256 * idx.toNat) ∧
  (∀ (htp : Bool) (w : Word), w.toNat % 16 = 11 → (∀ idx, decode htp w ≠ .ok (.rdslot idx)) →
    ∃ e, decode htp w = .error e) ∧
  ∀ (s : State) (idx : BitVec 6), s.cfg.hasTestPort = true → idx.toNat ≤ 60 →
    exec (.rdslot idx) s =
      .next { s with result := if s.slot idx.toNat = true then 1 else 0, err := false }

/-- 43_test_port.md R201: the words of WRSLOT are exactly those of its encoding, in a block with a test
port; any other word with this `OP` is illegal; and the slot holds `v`, every other slot reads as before,
and the next RDSLOT of the slot answers `v`. -/
def Obligations.WrslotWritesExactlyTheSlot : Prop :=
  (∀ (htp : Bool) (w : Word) (idx : BitVec 6) (v : Bool), decode htp w = .ok (.wrslot idx v) ↔
    htp = true ∧ idx.toNat ≤ 60 ∧ w.toNat = 12 + 16 * v.toNat + 256 * idx.toNat) ∧
  (∀ (htp : Bool) (w : Word), w.toNat % 16 = 12 → (∀ idx v, decode htp w ≠ .ok (.wrslot idx v)) →
    ∃ e, decode htp w = .error e) ∧
  ∀ (s : State) (idx : BitVec 6) (v : Bool), s.cfg.hasTestPort = true → idx.toNat ≤ 60 →
    ∃ m : Memory,
      exec (.wrslot idx v) s = .next { s with buf := m, result := 0, err := false } ∧
      m.readSlot idx.toNat = v ∧ (∀ a, a ≠ idx.toNat → m.readSlot a = s.buf.readSlot a) ∧
      exec (.rdslot idx) { s with buf := m, result := 0, err := false } =
        .next { s with buf := m, result := if v = true then 1 else 0, err := false }

/-- 43_test_port.md R200 and R201, their exceptions, and 20_memory.md R54: a slot that does not exist, or a
block without a test port, makes the operation illegal, and nothing is written. The decoder gives `exec` no
such operands; that the meanings answer `ERR` = 1 themselves is the model's choice
(notes/assumptions/4.md). -/
def Obligations.MissingSlotOrTestPortIsIllegal : Prop :=
  ∀ (s : State) (idx : BitVec 6) (v : Bool), (s.cfg.hasTestPort = false ∨ 61 ≤ idx.toNat) →
    exec (.rdslot idx) s = .next { s with result := 0, err := true } ∧
    exec (.wrslot idx v) s = .next { s with result := 0, err := true }

/-! ### Whole-machine rules -/

/-- 20_memory.md R56, with its sentence derived from 41_queries.md R140: HAS_SIGNAL can write QUALITY,
only to 0, and nothing else, and repeats its result; every other query writes no state and repeats its
answer. That an RDSLOT of a slot or test port that does not exist answers too is the model's choice
(notes/assumptions/4.md). -/
def Obligations.QueriesHaveNoSideEffectButHasSignal : Prop :=
  (∀ s : State, ∃ r q, exec .hasSignal s = .next { s with quality := q, result := r, err := false } ∧
    (q = s.quality ∨ q = false) ∧
    exec .hasSignal { s with quality := q, result := r, err := false } =
      .next { s with quality := q, result := r, err := false }) ∧
  (∀ (i : Instr) (s : State),
    (i = .isValid ∨ i = .getSecond ∨ i = .getMinute ∨ i = .getHour ∨ i = .getMinuteOfDay ∨
      ∃ idx, i = .rdslot idx) →
    ∃ r e, exec i s = .next { s with result := r, err := e } ∧
      exec i { s with result := r, err := e } = .next { s with result := r, err := e })

/-- 20_memory.md R51: who may change which slot. -/
def Obligations.OnlyTheNamedWritersChangeASlot : Prop :=
  ∀ (i : Instr) (s t : State) (a : Nat), exec i s = .next t → t.slot a ≠ s.slot a →
    (i = .edge ∧ s.edgeAccepted ∧ s.lvlPrev = true ∧ s.line = false ∧ a = s.cursor.toNat ∧ a ≤ 60) ∨
    (∃ idx v, i = .wrslot idx v ∧ a = idx.toNat ∧ a ≤ 60) ∨
    ((i = .start ∨ i = .stop ∨ i = .restart) ∧ t.slot a = false)

/-- 10_state.md R22, R30 and R38: only START and STOP change the power output and the edge enable. -/
def Obligations.OnlyStartAndStopSwitchTheEnables : Prop :=
  ∀ (i : Instr) (s t : State), exec i s = .next t → i ≠ .start → i ≠ .stop →
    t.powerOut = s.powerOut ∧ t.edgeEnable = s.edgeEnable

/-- 10_state.md R22 and R26: QUALITY becomes 1 only by an accepted EDGE, and becomes 0 only by a rejected
EDGE, by HAS_SIGNAL after a silence, or by a clear. -/
def Obligations.OnlyTheNamedWritersChangeQuality : Prop :=
  ∀ (i : Instr) (s t : State), exec i s = .next t →
    (s.quality = false → t.quality = true → i = .edge ∧ s.edgeAccepted) ∧
    (s.quality = true → t.quality = false →
      (i = .edge ∧ s.edgeEn = true ∧ ¬ s.edgeAccepted) ∨
      (i = .hasSignal ∧ 2500 < (s.now - s.tStartCur).toNat) ∨
      i = .start ∨ i = .stop ∨ i = .restart)

/-- 10_state.md R22 and R28: the sync fields change only at a sync, where CURSOR becomes 0, or by a clear.
That the parameters are data that no operation writes is the model's choice (notes/assumptions/1.md). -/
def Obligations.OnlyASyncOrAClearWritesTheSyncFields : Prop :=
  ∀ (i : Instr) (s t : State), exec i s = .next t → t.cfg = s.cfg ∧
    ((HEq t.tSync s.tSync ∧ HEq t.tExpiry s.tExpiry) ∨
     (i = .edge ∧ s.edgeAccepted ∧ s.lvlPrev = false ∧ s.line = true ∧
        1500 < (s.now - s.tStartCur).toNat ∧ t.cursor = 0 ∧ HEq t.tSync s.now ∧
        t.tExpiry = t.tSync + BitVec.ofNat t.cfg.tsWidth 300000) ∨
     ((i = .start ∨ i = .stop ∨ i = .restart) ∧ t.tSync = 0 ∧ t.tExpiry = 0))

/-- No operation changes the `NOW` and `LINE` sampled for it (10_state.md R37). The other fields it keeps are
the model's choice: `CMD` and `CMD_VALID` beside them (notes/assumptions/3.md), the parameters
(notes/assumptions/1.md) and the list of the inputs to come (notes/assumptions/2.md). -/
def Obligations.OperationsKeepTheSampledPorts : Prop :=
  ∀ (i : Instr) (s t : State), exec i s = .next t →
    t.cfg = s.cfg ∧ t.cmd = s.cmd ∧ t.cmdValid = s.cmdValid ∧ HEq t.now s.now ∧ t.line = s.line ∧
      HEq t.pending s.pending

/-! ### Invariants -/

/-- 70_reset_and_hazards.md R240: the power-on state is legal: the cursor in 0..60, the sync fields in
agreement, the buffer canonical, the response in range. The canonical form of the buffer is the model's
choice (notes/assumptions/8.md), and so are the default parameters in `State.reset`
(notes/assumptions/1.md). -/
def Obligations.PowerOnStateIsLegal : Prop := State.reset.Inv

/-- 10_state.md R27 and R28, 30_encoding.md R72 and 60_exceptions.md R212: every step keeps a legal state
legal: the cursor in 0..60, the sync fields in agreement, the buffer canonical, the response in range. Three
things here are the model's choice: the canonical form of the buffer (notes/assumptions/8.md), `ERR` = 1 as
a response (notes/assumptions/4.md), and a reset as one of the inputs (notes/assumptions/7.md). -/
def Obligations.EveryStepKeepsTheStateLegal : Prop :=
  ∀ s t : State, s.Inv → step s = .next t → t.Inv

/-- From a legal state every step answers a next state, whatever the inputs: no operation faults on its
values (60_exceptions.md R212), and an illegal word is answered (R210). R210 lets a model take an illegal
word as a fault; that it is a response is the model's choice (notes/assumptions/4.md), and so are the
inputs that are no operation, the idle sample and the reset (notes/assumptions/2.md and 7.md). -/
def Obligations.LegalStatesNeverStop : Prop :=
  ∀ s : State, s.Inv → ∃ t, step s = .next t

/-- 60_exceptions.md R229, as a duty (notes/assumptions/5.md): while the inputs keep to a clock that does not
wrap, `T_START_PREV`, `T_START_CUR`, `T_END` and `T_SYNC` do not lie in the future and the pulse starts
stay in order. `T_EXPIRY` lies ahead after every sync and is none of them. -/
def Obligations.EveryStepKeepsTheTimestampsOrdered : Prop :=
  ∀ s t : State, s.timeOrdered → step s = .next t → t.timeOrdered

/-- 42_lifecycle.md R180 to R182 and 70_reset_and_hazards.md R240: the power output and the edge enable stay
equal, since START and STOP write both and a reset clears both. That a reset is one of the inputs is the
model's choice (notes/assumptions/7.md). -/
def Obligations.EveryStepKeepsPowerAndEdgeEnableEqual : Prop :=
  ∀ s t : State, s.powerEn = s.edgeEn → step s = .next t → t.powerEn = t.edgeEn
end

