-- ==== Sys2Proof/Laws/Decode.lean ====
section
/-! SUPPORT. The fields of a word put together from fields, and a word put together from its own
fields: what every law of the decoder and the encoder rests on. -/

namespace Sys2Proof

/-- Every field of an assembled word is the field it was assembled from, and the reserved ones are 0. -/
theorem fields_assemble : ∀ (op : BitVec 4) (v : BitVec 1) (idx : BitVec 6),
    opField (assemble op v idx) = op ∧ vField (assemble op v idx) = v ∧
      rsv0Field (assemble op v idx) = 0 ∧ idxField (assemble op v idx) = idx ∧
      rsv1Field (assemble op v idx) = 0 := by
  decide +kernel

@[simp] theorem opField_assemble (op : BitVec 4) (v : BitVec 1) (idx : BitVec 6) :
    opField (assemble op v idx) = op := (fields_assemble op v idx).1

@[simp] theorem vField_assemble (op : BitVec 4) (v : BitVec 1) (idx : BitVec 6) :
    vField (assemble op v idx) = v := (fields_assemble op v idx).2.1

@[simp] theorem rsv0Field_assemble (op : BitVec 4) (v : BitVec 1) (idx : BitVec 6) :
    rsv0Field (assemble op v idx) = 0 := (fields_assemble op v idx).2.2.1

@[simp] theorem idxField_assemble (op : BitVec 4) (v : BitVec 1) (idx : BitVec 6) :
    idxField (assemble op v idx) = idx := (fields_assemble op v idx).2.2.2.1

@[simp] theorem rsv1Field_assemble (op : BitVec 4) (v : BitVec 1) (idx : BitVec 6) :
    rsv1Field (assemble op v idx) = 0 := (fields_assemble op v idx).2.2.2.2

/-- A word whose reserved fields are 0 is put together from its own fields. -/
theorem assemble_fields {w : Word} (h0 : rsv0Field w = 0) (h1 : rsv1Field w = 0) :
    assemble (opField w) (vField w) (idxField w) = w := by
  have all : (rsv1Field w ++ idxField w ++ rsv0Field w ++ vField w ++ opField w : Word) = w := by
    unfold rsv1Field idxField rsv0Field vField opField
    ext i hi
    simp only [BitVec.getElem_append, BitVec.getElem_extractLsb']
    have : i = 0 ∨ i = 1 ∨ i = 2 ∨ i = 3 ∨ i = 4 ∨ i = 5 ∨ i = 6 ∨ i = 7 ∨ i = 8 ∨ i = 9 ∨ i = 10 ∨
        i = 11 ∨ i = 12 ∨ i = 13 ∨ i = 14 ∨ i = 15 := by omega
    rcases this with rfl | rfl | rfl | rfl | rfl | rfl | rfl | rfl | rfl | rfl | rfl | rfl | rfl | rfl |
      rfl | rfl <;> simp [BitVec.getLsbD_eq_getElem]
  rw [h0, h1] at all
  exact all

@[simp] theorem wordOfBytes_wordBytes (w : Word) :
    wordOfBytes (w.extractLsb' 0 8) (w.extractLsb' 8 8) = w := by
  unfold wordOfBytes
  ext i hi
  simp only [BitVec.getElem_append, BitVec.getElem_extractLsb']
  split <;> simp_all [BitVec.getLsbD_eq_getElem]

end Sys2Proof
end

