-- ==== Sys2Proof/Laws/Memory.lean ====
section
/-! SUPPORT. The laws of the bit buffer: a read after a write, and the canonical form kept by every
write. The read laws hold of every list of cells, canonical or not. -/

namespace Sys2Proof.Machine

@[simp] theorem readSlot_nil (i : Nat) : Memory.readSlot [] i = false := by
  simp [Memory.readSlot, Memory.readByte, Memory.unlisted]

@[simp] theorem bitByte_bit (b : Bool) : (bitByte b)[0] = b := by cases b <;> rfl

/-! ### Reads after writes -/

theorem readByte_dropCell_same (m : Memory) (a : Nat) :
    (m.dropCell a).readByte a = Memory.unlisted := by
  induction m with
  | nil => rfl
  | cons c m ih =>
    by_cases h : c.1 = a
    · simpa [Memory.dropCell, h] using ih
    · simpa [Memory.dropCell, h, Memory.readByte] using ih

theorem readByte_dropCell_other (m : Memory) {a a' : Nat} (ne : a' ≠ a) :
    (m.dropCell a).readByte a' = m.readByte a' := by
  induction m with
  | nil => rfl
  | cons c m ih =>
    by_cases h : c.1 = a
    · have : c.1 ≠ a' := fun e => ne (e ▸ h)
      simpa [Memory.dropCell, h, Memory.readByte, ne.symm] using ih
    · by_cases h' : c.1 = a'
      · simp [Memory.dropCell, Memory.readByte, h', ne]
      · simpa [Memory.dropCell, h, Memory.readByte, h'] using ih

theorem mem_dropCell {m : Memory} {a : Nat} {c : Host.Cell} :
    c ∈ m.dropCell a ↔ c ∈ m ∧ c.1 ≠ a := by simp [Memory.dropCell]

theorem readByte_putCell_same (m : Memory) (a : Nat) (b : Byte) (h : ∀ c ∈ m, c.1 ≠ a) :
    (m.putCell a b).readByte a = b := by
  induction m with
  | nil => simp [Memory.putCell, Memory.readByte]
  | cons c m ih =>
    have hc := h c (by simp)
    by_cases lt : a < c.1
    · simp [Memory.putCell, lt, Memory.readByte]
    · simpa [Memory.putCell, lt, Memory.readByte, hc] using ih fun d hd => h d (by simp [hd])

theorem readByte_putCell_other (m : Memory) {a a' : Nat} (b : Byte) (ne : a' ≠ a) :
    (m.putCell a b).readByte a' = m.readByte a' := by
  induction m with
  | nil => simp [Memory.putCell, Memory.readByte, ne.symm]
  | cons c m ih =>
    by_cases lt : a < c.1
    · simp [Memory.putCell, lt, Memory.readByte, ne.symm]
    · simp only [Memory.putCell, lt, if_false, Memory.readByte, ih]

theorem readByte_writeByte_same (m : Memory) (a : Nat) (b : Byte) :
    (m.writeByte a b).readByte a = b := by
  unfold Memory.writeByte
  split
  · simpa [*] using readByte_dropCell_same m a
  · exact readByte_putCell_same _ _ _ fun c hc => (mem_dropCell.1 hc).2

theorem readByte_writeByte_other (m : Memory) {a a' : Nat} (b : Byte) (ne : a' ≠ a) :
    (m.writeByte a b).readByte a' = m.readByte a' := by
  unfold Memory.writeByte
  split
  · exact readByte_dropCell_other m ne
  · rw [readByte_putCell_other _ _ ne, readByte_dropCell_other m ne]

/-- A slot reads as the bit last written to it. -/
@[simp] theorem readSlot_writeSlot_same (m : Memory) (i : Nat) (b : Bool) :
    (m.writeSlot i b).readSlot i = b := by
  simp [Memory.readSlot, Memory.writeSlot, readByte_writeByte_same]

/-- A write leaves every other slot alone. -/
theorem readSlot_writeSlot_other (m : Memory) {i j : Nat} (b : Bool) (ne : j ≠ i) :
    (m.writeSlot i b).readSlot j = m.readSlot j := by
  simp [Memory.readSlot, Memory.writeSlot, readByte_writeByte_other m _ ne]

theorem readSlot_writeSlot (m : Memory) (i j : Nat) (b : Bool) :
    (m.writeSlot i b).readSlot j = if j = i then b else m.readSlot j := by
  split
  · simp [*]
  · exact readSlot_writeSlot_other m b ‹_›

/-! ### The canonical form -/

theorem wf_nil : Memory.wf [] := ⟨.nil, by simp⟩

theorem wf_dropCell {m : Memory} (h : m.wf) (a : Nat) : (m.dropCell a).wf :=
  ⟨h.1.filter _, fun c hc => h.2 c (mem_dropCell.1 hc).1⟩

theorem mem_putCell {m : Memory} {a : Nat} {b : Byte} {c : Host.Cell} :
    c ∈ m.putCell a b ↔ c = (a, b) ∨ c ∈ m := by
  induction m with
  | nil => simp [Memory.putCell]
  | cons d m ih =>
    by_cases lt : a < d.1
    · simp [Memory.putCell, lt]
    · simp only [Memory.putCell, lt, if_false, List.mem_cons, ih]
      tauto

theorem pairwise_putCell {m : Memory} {a : Nat} {b : Byte}
    (h : m.Pairwise fun c d => c.1 < d.1) (ne : ∀ c ∈ m, c.1 ≠ a) :
    (m.putCell a b).Pairwise fun c d => c.1 < d.1 := by
  induction m with
  | nil => simp [Memory.putCell]
  | cons d m ih =>
    obtain ⟨hd, hm⟩ := List.pairwise_cons.1 h
    by_cases lt : a < d.1
    · simp only [Memory.putCell, lt, if_true, List.pairwise_cons, List.mem_cons]
      refine ⟨?_, hd, hm⟩
      rintro c (rfl | hc)
      · exact lt
      · exact lt.trans (hd c hc)
    · have da : d.1 < a := lt_of_le_of_ne (not_lt.1 lt) (ne d (by simp))
      simp only [Memory.putCell, lt, if_false, List.pairwise_cons]
      refine ⟨fun c hc => ?_, ih hm fun c hc => ne c (by simp [hc])⟩
      rcases mem_putCell.1 hc with rfl | hc
      · exact da
      · exact hd c hc

/-- Writing a slot that exists keeps the canonical form. -/
theorem wf_writeSlot {m : Memory} (h : m.wf) {i : Nat} (b : Bool) (lt : i < bufLen) :
    (m.writeSlot i b).wf := by
  have hd := wf_dropCell h i
  cases b with
  | false => simpa [Memory.writeSlot, Memory.writeByte, bitByte, Memory.unlisted] using hd
  | true =>
    simp only [Memory.writeSlot, Memory.writeByte, bitByte, Memory.unlisted]
    refine ⟨pairwise_putCell hd.1 fun c hc => (mem_dropCell.1 hc).2, fun c hc => ?_⟩
    rcases mem_putCell.1 hc with rfl | hc
    · exact ⟨lt, rfl⟩
    · exact hd.2 c hc

end Sys2Proof.Machine
end

