-- ==== Sys2Proof/Laws/Ops.lean ====
section
/-! SUPPORT. One lemma for each shared operation that says once everything it can do. -/

namespace Sys2Proof.Machine

@[simp] theorem andThen_next (s : State) (f : State → Result) : andThen (.next s) f = f s := rfl

/-- `andThen` answers a next state exactly where both parts do. -/
theorem andThen_eq_next {o : Result} {f : State → Result} {t : State} :
    andThen o f = .next t ↔ ∃ s, o = .next s ∧ f s = .next t := by
  cases o <;> simp [andThen]

/-- A store to a slot that exists writes that slot and nothing else. -/
theorem storeSlot_of_exists {i : Nat} (lt : i < bufLen) (b : Bool) (s : State) :
    storeSlot i b s = .next { s with buf := s.buf.writeSlot i b } := if_pos lt

/-- Everything `storeSlot` can do where it answers a next state. -/
theorem storeSlot_eq_next {i : Nat} {b : Bool} {s t : State} :
    storeSlot i b s = .next t ↔ i < bufLen ∧ t = { s with buf := s.buf.writeSlot i b } := by
  unfold storeSlot
  split <;> simp_all [eq_comm]

@[simp] theorem boolResult_le (b : Bool) : (boolResult b).toNat ≤ 1 := by cases b <;> decide

theorem boolResult_eq_one {b : Bool} : boolResult b = 1 ↔ b = true := by cases b <;> decide

theorem boolResult_eq_zero {b : Bool} : boolResult b = 0 ↔ b = false := by cases b <;> decide

/-- An integer result in the range of a word reads back as itself. -/
theorem intResult_toNat {n : Int} (lo : 0 ≤ n) (hi : n < 65536) :
    ((intResult n).toNat : Int) = n := by
  rw [intResult, BitVec.toNat_ofInt]
  omega

theorem sampleInputs_none {s : State} (h : s.pending = []) :
    sampleInputs s = { s with cmdValid := false } := by
  unfold sampleInputs
  rw [h]

theorem sampleInputs_issue {s : State} {a : Agent} {cmd : Word} {now : Timestamp s.cfg.tsWidth}
    {line : Bool} {rest : List (Input s.cfg.tsWidth)} (h : s.pending = .issue a cmd now line :: rest) :
    sampleInputs s =
      { s with cmdValid := true, cmd := cmd, now := now, line := line, pending := rest } := by
  unfold sampleInputs
  rw [h]

theorem sampleInputs_idle {s : State} {now : Timestamp s.cfg.tsWidth} {line : Bool}
    {rest : List (Input s.cfg.tsWidth)} (h : s.pending = .idle now line :: rest) :
    sampleInputs s = { s with cmdValid := false, now := now, line := line, pending := rest } := by
  unfold sampleInputs
  rw [h]

theorem sampleInputs_reset {s : State} {rest : List (Input s.cfg.tsWidth)}
    (h : s.pending = .reset :: rest) : sampleInputs s = { platformReset s with pending := rest } := by
  unfold sampleInputs
  rw [h]

/-- Every input that `sampleInputs` can take. -/
theorem sampleInputs_cases (s : State) :
    (s.pending = [] ∧ sampleInputs s = { s with cmdValid := false }) ∨
    (∃ a cmd now line rest, s.pending = .issue a cmd now line :: rest ∧
      sampleInputs s =
        { s with cmdValid := true, cmd := cmd, now := now, line := line, pending := rest }) ∨
    (∃ now line rest, s.pending = .idle now line :: rest ∧
      sampleInputs s = { s with cmdValid := false, now := now, line := line, pending := rest }) ∨
    (∃ rest, s.pending = .reset :: rest ∧
      sampleInputs s = { platformReset s with pending := rest }) := by
  rcases h : s.pending with _ | ⟨x, rest⟩
  · exact .inl ⟨rfl, (sampleInputs_none h).trans (by rw [← h])⟩
  · cases x with
    | issue a cmd now line =>
      exact .inr (.inl ⟨a, cmd, now, line, rest, rfl, sampleInputs_issue h⟩)
    | idle now line => exact .inr (.inr (.inl ⟨now, line, rest, rfl, sampleInputs_idle h⟩))
    | reset => exact .inr (.inr (.inr ⟨rest, rfl, sampleInputs_reset h⟩))

end Sys2Proof.Machine
end

