-- ==== Sys2Proof/Laws/State.lean ====
section
/-! SUPPORT. One lemma for each field of State after each named update, true by rfl, so that no later
proof unfolds a record update. -/

namespace Sys2Proof.Machine

/-! ### respond -/

@[simp] theorem respond_cfg (v : Word) (s : State) : (respond v s).cfg = s.cfg := rfl
@[simp] theorem respond_lvlPrev (v : Word) (s : State) : (respond v s).lvlPrev = s.lvlPrev := rfl
@[simp] theorem respond_tStartPrev (v : Word) (s : State) : (respond v s).tStartPrev = s.tStartPrev := rfl
@[simp] theorem respond_tStartCur (v : Word) (s : State) : (respond v s).tStartCur = s.tStartCur := rfl
@[simp] theorem respond_tEnd (v : Word) (s : State) : (respond v s).tEnd = s.tEnd := rfl
@[simp] theorem respond_quality (v : Word) (s : State) : (respond v s).quality = s.quality := rfl
@[simp] theorem respond_cursor (v : Word) (s : State) : (respond v s).cursor = s.cursor := rfl
@[simp] theorem respond_tSync (v : Word) (s : State) : (respond v s).tSync = s.tSync := rfl
@[simp] theorem respond_tExpiry (v : Word) (s : State) : (respond v s).tExpiry = s.tExpiry := rfl
@[simp] theorem respond_buf (v : Word) (s : State) : (respond v s).buf = s.buf := rfl
@[simp] theorem respond_powerEn (v : Word) (s : State) : (respond v s).powerEn = s.powerEn := rfl
@[simp] theorem respond_edgeEn (v : Word) (s : State) : (respond v s).edgeEn = s.edgeEn := rfl
@[simp] theorem respond_cmd (v : Word) (s : State) : (respond v s).cmd = s.cmd := rfl
@[simp] theorem respond_cmdValid (v : Word) (s : State) : (respond v s).cmdValid = s.cmdValid := rfl
@[simp] theorem respond_now (v : Word) (s : State) : (respond v s).now = s.now := rfl
@[simp] theorem respond_line (v : Word) (s : State) : (respond v s).line = s.line := rfl
@[simp] theorem respond_result (v : Word) (s : State) : (respond v s).result = v := rfl
@[simp] theorem respond_err (v : Word) (s : State) : (respond v s).err = false := rfl
@[simp] theorem respond_pending (v : Word) (s : State) : (respond v s).pending = s.pending := rfl

/-! ### raiseIllegal -/

@[simp] theorem raiseIllegal_cfg (s : State) : (raiseIllegal s).cfg = s.cfg := rfl
@[simp] theorem raiseIllegal_lvlPrev (s : State) : (raiseIllegal s).lvlPrev = s.lvlPrev := rfl
@[simp] theorem raiseIllegal_tStartPrev (s : State) : (raiseIllegal s).tStartPrev = s.tStartPrev := rfl
@[simp] theorem raiseIllegal_tStartCur (s : State) : (raiseIllegal s).tStartCur = s.tStartCur := rfl
@[simp] theorem raiseIllegal_tEnd (s : State) : (raiseIllegal s).tEnd = s.tEnd := rfl
@[simp] theorem raiseIllegal_quality (s : State) : (raiseIllegal s).quality = s.quality := rfl
@[simp] theorem raiseIllegal_cursor (s : State) : (raiseIllegal s).cursor = s.cursor := rfl
@[simp] theorem raiseIllegal_tSync (s : State) : (raiseIllegal s).tSync = s.tSync := rfl
@[simp] theorem raiseIllegal_tExpiry (s : State) : (raiseIllegal s).tExpiry = s.tExpiry := rfl
@[simp] theorem raiseIllegal_buf (s : State) : (raiseIllegal s).buf = s.buf := rfl
@[simp] theorem raiseIllegal_powerEn (s : State) : (raiseIllegal s).powerEn = s.powerEn := rfl
@[simp] theorem raiseIllegal_edgeEn (s : State) : (raiseIllegal s).edgeEn = s.edgeEn := rfl
@[simp] theorem raiseIllegal_cmd (s : State) : (raiseIllegal s).cmd = s.cmd := rfl
@[simp] theorem raiseIllegal_cmdValid (s : State) : (raiseIllegal s).cmdValid = s.cmdValid := rfl
@[simp] theorem raiseIllegal_now (s : State) : (raiseIllegal s).now = s.now := rfl
@[simp] theorem raiseIllegal_line (s : State) : (raiseIllegal s).line = s.line := rfl
@[simp] theorem raiseIllegal_result (s : State) : (raiseIllegal s).result = 0 := rfl
@[simp] theorem raiseIllegal_err (s : State) : (raiseIllegal s).err = true := rfl
@[simp] theorem raiseIllegal_pending (s : State) : (raiseIllegal s).pending = s.pending := rfl

/-! ### setQuality -/

@[simp] theorem setQuality_cfg (q : Bool) (s : State) : (setQuality q s).cfg = s.cfg := rfl
@[simp] theorem setQuality_lvlPrev (q : Bool) (s : State) : (setQuality q s).lvlPrev = s.lvlPrev := rfl
@[simp] theorem setQuality_tStartPrev (q : Bool) (s : State) : (setQuality q s).tStartPrev = s.tStartPrev := rfl
@[simp] theorem setQuality_tStartCur (q : Bool) (s : State) : (setQuality q s).tStartCur = s.tStartCur := rfl
@[simp] theorem setQuality_tEnd (q : Bool) (s : State) : (setQuality q s).tEnd = s.tEnd := rfl
@[simp] theorem setQuality_quality (q : Bool) (s : State) : (setQuality q s).quality = q := rfl
@[simp] theorem setQuality_cursor (q : Bool) (s : State) : (setQuality q s).cursor = s.cursor := rfl
@[simp] theorem setQuality_tSync (q : Bool) (s : State) : (setQuality q s).tSync = s.tSync := rfl
@[simp] theorem setQuality_tExpiry (q : Bool) (s : State) : (setQuality q s).tExpiry = s.tExpiry := rfl
@[simp] theorem setQuality_buf (q : Bool) (s : State) : (setQuality q s).buf = s.buf := rfl
@[simp] theorem setQuality_powerEn (q : Bool) (s : State) : (setQuality q s).powerEn = s.powerEn := rfl
@[simp] theorem setQuality_edgeEn (q : Bool) (s : State) : (setQuality q s).edgeEn = s.edgeEn := rfl
@[simp] theorem setQuality_cmd (q : Bool) (s : State) : (setQuality q s).cmd = s.cmd := rfl
@[simp] theorem setQuality_cmdValid (q : Bool) (s : State) : (setQuality q s).cmdValid = s.cmdValid := rfl
@[simp] theorem setQuality_now (q : Bool) (s : State) : (setQuality q s).now = s.now := rfl
@[simp] theorem setQuality_line (q : Bool) (s : State) : (setQuality q s).line = s.line := rfl
@[simp] theorem setQuality_result (q : Bool) (s : State) : (setQuality q s).result = s.result := rfl
@[simp] theorem setQuality_err (q : Bool) (s : State) : (setQuality q s).err = s.err := rfl
@[simp] theorem setQuality_pending (q : Bool) (s : State) : (setQuality q s).pending = s.pending := rfl

/-! ### clearState -/

@[simp] theorem clearState_cfg (s : State) : (clearState s).cfg = s.cfg := rfl
@[simp] theorem clearState_lvlPrev (s : State) : (clearState s).lvlPrev = false := rfl
@[simp] theorem clearState_tStartPrev (s : State) : (clearState s).tStartPrev = 0 := rfl
@[simp] theorem clearState_tStartCur (s : State) : (clearState s).tStartCur = 0 := rfl
@[simp] theorem clearState_tEnd (s : State) : (clearState s).tEnd = 0 := rfl
@[simp] theorem clearState_quality (s : State) : (clearState s).quality = false := rfl
@[simp] theorem clearState_cursor (s : State) : (clearState s).cursor = 0 := rfl
@[simp] theorem clearState_tSync (s : State) : (clearState s).tSync = 0 := rfl
@[simp] theorem clearState_tExpiry (s : State) : (clearState s).tExpiry = 0 := rfl
@[simp] theorem clearState_buf (s : State) : (clearState s).buf = [] := rfl
@[simp] theorem clearState_powerEn (s : State) : (clearState s).powerEn = s.powerEn := rfl
@[simp] theorem clearState_edgeEn (s : State) : (clearState s).edgeEn = s.edgeEn := rfl
@[simp] theorem clearState_cmd (s : State) : (clearState s).cmd = s.cmd := rfl
@[simp] theorem clearState_cmdValid (s : State) : (clearState s).cmdValid = s.cmdValid := rfl
@[simp] theorem clearState_now (s : State) : (clearState s).now = s.now := rfl
@[simp] theorem clearState_line (s : State) : (clearState s).line = s.line := rfl
@[simp] theorem clearState_result (s : State) : (clearState s).result = s.result := rfl
@[simp] theorem clearState_err (s : State) : (clearState s).err = s.err := rfl
@[simp] theorem clearState_pending (s : State) : (clearState s).pending = s.pending := rfl

/-! ### shiftPulseStart -/

@[simp] theorem shiftPulseStart_cfg (s : State) : (shiftPulseStart s).cfg = s.cfg := rfl
@[simp] theorem shiftPulseStart_lvlPrev (s : State) : (shiftPulseStart s).lvlPrev = s.lvlPrev := rfl
@[simp] theorem shiftPulseStart_tStartPrev (s : State) : (shiftPulseStart s).tStartPrev = s.tStartCur := rfl
@[simp] theorem shiftPulseStart_tStartCur (s : State) : (shiftPulseStart s).tStartCur = s.now := rfl
@[simp] theorem shiftPulseStart_tEnd (s : State) : (shiftPulseStart s).tEnd = s.tEnd := rfl
@[simp] theorem shiftPulseStart_quality (s : State) : (shiftPulseStart s).quality = s.quality := rfl
@[simp] theorem shiftPulseStart_cursor (s : State) : (shiftPulseStart s).cursor = s.cursor := rfl
@[simp] theorem shiftPulseStart_tSync (s : State) : (shiftPulseStart s).tSync = s.tSync := rfl
@[simp] theorem shiftPulseStart_tExpiry (s : State) : (shiftPulseStart s).tExpiry = s.tExpiry := rfl
@[simp] theorem shiftPulseStart_buf (s : State) : (shiftPulseStart s).buf = s.buf := rfl
@[simp] theorem shiftPulseStart_powerEn (s : State) : (shiftPulseStart s).powerEn = s.powerEn := rfl
@[simp] theorem shiftPulseStart_edgeEn (s : State) : (shiftPulseStart s).edgeEn = s.edgeEn := rfl
@[simp] theorem shiftPulseStart_cmd (s : State) : (shiftPulseStart s).cmd = s.cmd := rfl
@[simp] theorem shiftPulseStart_cmdValid (s : State) : (shiftPulseStart s).cmdValid = s.cmdValid := rfl
@[simp] theorem shiftPulseStart_now (s : State) : (shiftPulseStart s).now = s.now := rfl
@[simp] theorem shiftPulseStart_line (s : State) : (shiftPulseStart s).line = s.line := rfl
@[simp] theorem shiftPulseStart_result (s : State) : (shiftPulseStart s).result = s.result := rfl
@[simp] theorem shiftPulseStart_err (s : State) : (shiftPulseStart s).err = s.err := rfl
@[simp] theorem shiftPulseStart_pending (s : State) : (shiftPulseStart s).pending = s.pending := rfl

/-! ### minuteSync -/

@[simp] theorem minuteSync_cfg (s : State) : (minuteSync s).cfg = s.cfg := rfl
@[simp] theorem minuteSync_lvlPrev (s : State) : (minuteSync s).lvlPrev = s.lvlPrev := rfl
@[simp] theorem minuteSync_tStartPrev (s : State) : (minuteSync s).tStartPrev = s.tStartPrev := rfl
@[simp] theorem minuteSync_tStartCur (s : State) : (minuteSync s).tStartCur = s.tStartCur := rfl
@[simp] theorem minuteSync_tEnd (s : State) : (minuteSync s).tEnd = s.tEnd := rfl
@[simp] theorem minuteSync_quality (s : State) : (minuteSync s).quality = s.quality := rfl
@[simp] theorem minuteSync_cursor (s : State) : (minuteSync s).cursor = 0 := rfl
@[simp] theorem minuteSync_tSync (s : State) : (minuteSync s).tSync = s.now := rfl
@[simp] theorem minuteSync_tExpiry (s : State) : (minuteSync s).tExpiry = addMs s.now staleMs := rfl
@[simp] theorem minuteSync_buf (s : State) : (minuteSync s).buf = s.buf := rfl
@[simp] theorem minuteSync_powerEn (s : State) : (minuteSync s).powerEn = s.powerEn := rfl
@[simp] theorem minuteSync_edgeEn (s : State) : (minuteSync s).edgeEn = s.edgeEn := rfl
@[simp] theorem minuteSync_cmd (s : State) : (minuteSync s).cmd = s.cmd := rfl
@[simp] theorem minuteSync_cmdValid (s : State) : (minuteSync s).cmdValid = s.cmdValid := rfl
@[simp] theorem minuteSync_now (s : State) : (minuteSync s).now = s.now := rfl
@[simp] theorem minuteSync_line (s : State) : (minuteSync s).line = s.line := rfl
@[simp] theorem minuteSync_result (s : State) : (minuteSync s).result = s.result := rfl
@[simp] theorem minuteSync_err (s : State) : (minuteSync s).err = s.err := rfl
@[simp] theorem minuteSync_pending (s : State) : (minuteSync s).pending = s.pending := rfl

/-! ### secondTick -/

@[simp] theorem secondTick_cfg (s : State) : (secondTick s).cfg = s.cfg := rfl
@[simp] theorem secondTick_lvlPrev (s : State) : (secondTick s).lvlPrev = s.lvlPrev := rfl
@[simp] theorem secondTick_tStartPrev (s : State) : (secondTick s).tStartPrev = s.tStartPrev := rfl
@[simp] theorem secondTick_tStartCur (s : State) : (secondTick s).tStartCur = s.tStartCur := rfl
@[simp] theorem secondTick_tEnd (s : State) : (secondTick s).tEnd = s.tEnd := rfl
@[simp] theorem secondTick_quality (s : State) : (secondTick s).quality = s.quality := rfl
@[simp] theorem secondTick_cursor (s : State) : (secondTick s).cursor = nextCursor s.cursor := rfl
@[simp] theorem secondTick_tSync (s : State) : (secondTick s).tSync = s.tSync := rfl
@[simp] theorem secondTick_tExpiry (s : State) : (secondTick s).tExpiry = s.tExpiry := rfl
@[simp] theorem secondTick_buf (s : State) : (secondTick s).buf = s.buf := rfl
@[simp] theorem secondTick_powerEn (s : State) : (secondTick s).powerEn = s.powerEn := rfl
@[simp] theorem secondTick_edgeEn (s : State) : (secondTick s).edgeEn = s.edgeEn := rfl
@[simp] theorem secondTick_cmd (s : State) : (secondTick s).cmd = s.cmd := rfl
@[simp] theorem secondTick_cmdValid (s : State) : (secondTick s).cmdValid = s.cmdValid := rfl
@[simp] theorem secondTick_now (s : State) : (secondTick s).now = s.now := rfl
@[simp] theorem secondTick_line (s : State) : (secondTick s).line = s.line := rfl
@[simp] theorem secondTick_result (s : State) : (secondTick s).result = s.result := rfl
@[simp] theorem secondTick_err (s : State) : (secondTick s).err = s.err := rfl
@[simp] theorem secondTick_pending (s : State) : (secondTick s).pending = s.pending := rfl

/-! ### finishEdge -/

@[simp] theorem finishEdge_cfg (s : State) : (finishEdge s).cfg = s.cfg := rfl
@[simp] theorem finishEdge_lvlPrev (s : State) : (finishEdge s).lvlPrev = s.line := rfl
@[simp] theorem finishEdge_tStartPrev (s : State) : (finishEdge s).tStartPrev = s.tStartPrev := rfl
@[simp] theorem finishEdge_tStartCur (s : State) : (finishEdge s).tStartCur = s.tStartCur := rfl
@[simp] theorem finishEdge_tEnd (s : State) : (finishEdge s).tEnd = s.tEnd := rfl
@[simp] theorem finishEdge_quality (s : State) : (finishEdge s).quality = s.quality := rfl
@[simp] theorem finishEdge_cursor (s : State) : (finishEdge s).cursor = s.cursor := rfl
@[simp] theorem finishEdge_tSync (s : State) : (finishEdge s).tSync = s.tSync := rfl
@[simp] theorem finishEdge_tExpiry (s : State) : (finishEdge s).tExpiry = s.tExpiry := rfl
@[simp] theorem finishEdge_buf (s : State) : (finishEdge s).buf = s.buf := rfl
@[simp] theorem finishEdge_powerEn (s : State) : (finishEdge s).powerEn = s.powerEn := rfl
@[simp] theorem finishEdge_edgeEn (s : State) : (finishEdge s).edgeEn = s.edgeEn := rfl
@[simp] theorem finishEdge_cmd (s : State) : (finishEdge s).cmd = s.cmd := rfl
@[simp] theorem finishEdge_cmdValid (s : State) : (finishEdge s).cmdValid = s.cmdValid := rfl
@[simp] theorem finishEdge_now (s : State) : (finishEdge s).now = s.now := rfl
@[simp] theorem finishEdge_line (s : State) : (finishEdge s).line = s.line := rfl
@[simp] theorem finishEdge_result (s : State) : (finishEdge s).result = 0 := rfl
@[simp] theorem finishEdge_err (s : State) : (finishEdge s).err = false := rfl
@[simp] theorem finishEdge_pending (s : State) : (finishEdge s).pending = s.pending := rfl

/-! ### platformReset -/

@[simp] theorem platformReset_cfg (s : State) : (platformReset s).cfg = s.cfg := rfl
@[simp] theorem platformReset_lvlPrev (s : State) : (platformReset s).lvlPrev = false := rfl
@[simp] theorem platformReset_tStartPrev (s : State) : (platformReset s).tStartPrev = 0 := rfl
@[simp] theorem platformReset_tStartCur (s : State) : (platformReset s).tStartCur = 0 := rfl
@[simp] theorem platformReset_tEnd (s : State) : (platformReset s).tEnd = 0 := rfl
@[simp] theorem platformReset_quality (s : State) : (platformReset s).quality = false := rfl
@[simp] theorem platformReset_cursor (s : State) : (platformReset s).cursor = 0 := rfl
@[simp] theorem platformReset_tSync (s : State) : (platformReset s).tSync = 0 := rfl
@[simp] theorem platformReset_tExpiry (s : State) : (platformReset s).tExpiry = 0 := rfl
@[simp] theorem platformReset_buf (s : State) : (platformReset s).buf = [] := rfl
@[simp] theorem platformReset_powerEn (s : State) : (platformReset s).powerEn = false := rfl
@[simp] theorem platformReset_edgeEn (s : State) : (platformReset s).edgeEn = false := rfl
@[simp] theorem platformReset_cmd (s : State) : (platformReset s).cmd = s.cmd := rfl
@[simp] theorem platformReset_cmdValid (s : State) : (platformReset s).cmdValid = false := rfl
@[simp] theorem platformReset_now (s : State) : (platformReset s).now = s.now := rfl
@[simp] theorem platformReset_line (s : State) : (platformReset s).line = s.line := rfl
@[simp] theorem platformReset_result (s : State) : (platformReset s).result = 0 := rfl
@[simp] theorem platformReset_err (s : State) : (platformReset s).err = false := rfl
@[simp] theorem platformReset_pending (s : State) : (platformReset s).pending = s.pending := rfl

end Sys2Proof.Machine
end

