-- ==== Sys2Proof/Laws/Edge.lean ====
section
/-! SUPPORT. Everything an EDGE can do, said once: the two parts of an accepted rising edge, and the
inversion of `execEdge`. Later proofs cite these and do not unfold `execEdge`. -/

namespace Sys2Proof.Machine

/-- The edge is delivered and neither noise rule rejects it (40_edge_classifier.md R103). -/
def edgeTaken (s : State) : Prop :=
  s.edgeEn = true ∧ noiseRule1 s = false ∧ noiseRule2 s = false

theorem noiseRule1_iff (s : State) :
    noiseRule1 s = true ↔ (s.now - s.tStartPrev).toNat < 700 := decide_eq_true_iff

theorem noiseRule2_iff (s : State) :
    noiseRule2 s = true ↔ (s.now - s.tStartCur).toNat < 50 := decide_eq_true_iff

theorem pulseIsLong_iff (s : State) :
    pulseIsLong s = true ↔ 180 < (s.now - s.tStartCur).toNat := decide_eq_true_iff

theorem edgeTaken_iff (s : State) :
    edgeTaken s ↔ s.edgeEn = true ∧ 700 ≤ (s.now - s.tStartPrev).toNat ∧
      50 ≤ (s.now - s.tStartCur).toNat := by
  simp only [edgeTaken, ← Bool.not_eq_true, noiseRule1_iff, noiseRule2_iff, not_lt]

/-- After the shift the gap of the pulse starts is the time since the former current start. -/
theorem risingEdge_eq (s : State) :
    risingEdge s =
      if syncMs < sinceStartCur s then minuteSync (shiftPulseStart s)
      else secondTick (shiftPulseStart s) := rfl

theorem execEdge_gated {s : State} (h : s.edgeEn = false) : execEdge s = .next (respond 0 s) := by
  simp [execEdge, h]

theorem execEdge_rejected {s : State} (en : s.edgeEn = true)
    (h : noiseRule1 s = true ∨ noiseRule2 s = true) : execEdge s = .next (rejectEdge s) := by
  unfold execEdge
  rcases h with h | h <;> simp [en, h]

theorem execEdge_taken {s : State} (h : edgeTaken s) :
    execEdge s = andThen (classifyEdge (setQuality true s)) fun t => .next (finishEdge t) := by
  obtain ⟨en, n1, n2⟩ := h
  simp [execEdge, en, n1, n2]

theorem execEdge_rising {s : State} (h : edgeTaken s) (lv : s.lvlPrev = false)
    (ln : s.line = true) :
    execEdge s = .next (finishEdge (risingEdge (setQuality true s))) := by
  simp [execEdge_taken h, classifyEdge, lv, ln]

theorem execEdge_falling {s : State} (h : edgeTaken s) (lv : s.lvlPrev = true)
    (ln : s.line = false) (c : s.cursor.toNat < bufLen) :
    execEdge s = .next (finishEdge { setQuality true s with
      tEnd := s.now, buf := s.buf.writeSlot s.cursor.toNat (pulseIsLong s) }) := by
  rw [execEdge_taken h]
  simp only [classifyEdge, setQuality_lvlPrev, setQuality_line, lv, ln, fallingEdge,
    setQuality_cursor, storeSlot_of_exists c, andThen_next]
  rfl

theorem execEdge_sameLevel {s : State} (h : edgeTaken s) (lv : s.line = s.lvlPrev) :
    execEdge s = .next (finishEdge (setQuality true s)) := by
  rw [execEdge_taken h]
  cases e : s.lvlPrev <;> simp [classifyEdge, lv, e]

/-- The inversion of EDGE: gated, rejected, rising, falling or same-level. -/
theorem execEdge_cases {s t : State} (h : execEdge s = .next t) :
    (s.edgeEn = false ∧ t = respond 0 s) ∨
    (s.edgeEn = true ∧ (noiseRule1 s = true ∨ noiseRule2 s = true) ∧ t = rejectEdge s) ∨
    (edgeTaken s ∧ s.lvlPrev = false ∧ s.line = true ∧
      t = finishEdge (risingEdge (setQuality true s))) ∨
    (edgeTaken s ∧ s.lvlPrev = true ∧ s.line = false ∧ s.cursor.toNat < bufLen ∧
      t = finishEdge { setQuality true s with
        tEnd := s.now, buf := s.buf.writeSlot s.cursor.toNat (pulseIsLong s) }) ∨
    (edgeTaken s ∧ s.line = s.lvlPrev ∧ t = finishEdge (setQuality true s)) := by
  cases en : s.edgeEn with
  | false =>
    rw [execEdge_gated en] at h
    exact .inl ⟨rfl, by injection h with h; exact h.symm⟩
  | true =>
    by_cases n : noiseRule1 s = true ∨ noiseRule2 s = true
    · rw [execEdge_rejected en n] at h
      exact .inr (.inl ⟨rfl, n, by injection h with h; exact h.symm⟩)
    · have tk : edgeTaken s := ⟨en, by simpa using not_or.1 n⟩
      refine .inr (.inr ?_)
      cases lv : s.lvlPrev <;> cases ln : s.line
      · rw [execEdge_sameLevel tk (ln.trans lv.symm)] at h
        exact .inr (.inr ⟨tk, rfl, by injection h with h; exact h.symm⟩)
      · rw [execEdge_rising tk lv ln] at h
        exact .inl ⟨tk, rfl, rfl, by injection h with h; exact h.symm⟩
      · by_cases c : s.cursor.toNat < bufLen
        · rw [execEdge_falling tk lv ln c] at h
          exact .inr (.inl ⟨tk, rfl, rfl, c, by injection h with h; exact h.symm⟩)
        · rw [execEdge_taken tk] at h
          simp [classifyEdge, lv, ln, fallingEdge, storeSlot, c, andThen] at h
      · rw [execEdge_sameLevel tk (ln.trans lv.symm)] at h
        exact .inr (.inr ⟨tk, rfl, by injection h with h; exact h.symm⟩)

theorem nextCursor_lt (c : BitVec 6) : (nextCursor c).toNat < bufLen := by
  have : (c.toNat + 1) % 61 < 61 := Nat.mod_lt _ (by decide)
  simp only [nextCursor, bufLen, BitVec.toNat_ofNat]
  omega

end Sys2Proof.Machine
end

