-- ==== Sys2Proof/Laws/PerInstr.lean ====
section
/-! SUPPORT. Statements about every operation as syntax, one lemma for each constructor. -/

namespace Sys2Proof.Laws

/-! The family `EncodeFields`: each field of an operation's word holds what 30_encoding.md R70 and R73 say. -/

/-- The `OP` number of 30_encoding.md R73. -/
def encodedOp : Instr → BitVec 4
  | .nop => 0
  | .edge => 1
  | .start => 2
  | .stop => 3
  | .restart => 4
  | .hasSignal => 5
  | .isValid => 6
  | .getSecond => 7
  | .getMinute => 8
  | .getHour => 9
  | .getMinuteOfDay => 10
  | .rdslot _ => 11
  | .wrslot _ _ => 12

/-- The `V` operand, 0 where there is none (30_encoding.md R70). -/
def encodedV : Instr → BitVec 1
  | .wrslot _ v => BitVec.ofBool v
  | _ => 0

/-- The `IDX` operand, 0 where there is none (30_encoding.md R70). -/
def encodedIdx : Instr → BitVec 6
  | .rdslot idx => idx
  | .wrslot idx _ => idx
  | _ => 0

/-- The five fields of the word of `i`. -/
def EncodeFields.Statement (i : Instr) : Prop :=
  opField (encode i) = encodedOp i ∧ vField (encode i) = encodedV i ∧
    rsv0Field (encode i) = 0 ∧ idxField (encode i) = encodedIdx i ∧ rsv1Field (encode i) = 0

theorem EncodeFields.nop : EncodeFields.Statement .nop := by
  unfold EncodeFields.Statement; decide
theorem EncodeFields.edge : EncodeFields.Statement .edge := by
  unfold EncodeFields.Statement; decide
theorem EncodeFields.start : EncodeFields.Statement .start := by
  unfold EncodeFields.Statement; decide
theorem EncodeFields.stop : EncodeFields.Statement .stop := by
  unfold EncodeFields.Statement; decide
theorem EncodeFields.restart : EncodeFields.Statement .restart := by
  unfold EncodeFields.Statement; decide
theorem EncodeFields.hasSignal : EncodeFields.Statement .hasSignal := by
  unfold EncodeFields.Statement; decide
theorem EncodeFields.isValid : EncodeFields.Statement .isValid := by
  unfold EncodeFields.Statement; decide
theorem EncodeFields.getSecond : EncodeFields.Statement .getSecond := by
  unfold EncodeFields.Statement; decide
theorem EncodeFields.getMinute : EncodeFields.Statement .getMinute := by
  unfold EncodeFields.Statement; decide
theorem EncodeFields.getHour : EncodeFields.Statement .getHour := by
  unfold EncodeFields.Statement; decide
theorem EncodeFields.getMinuteOfDay : EncodeFields.Statement .getMinuteOfDay := by
  unfold EncodeFields.Statement; decide
theorem EncodeFields.rdslot (idx : BitVec 6) : EncodeFields.Statement (.rdslot idx) := by
  simp [EncodeFields.Statement, encode, encodedOp, encodedV, encodedIdx]
theorem EncodeFields.wrslot (idx : BitVec 6) (v : Bool) : EncodeFields.Statement (.wrslot idx v) := by
  simp [EncodeFields.Statement, encode, encodedOp, encodedV, encodedIdx]

end Sys2Proof.Laws
end

