-- ==== Sys2Proof/Laws/Step.lean ====
section
/-! SUPPORT. Everything a step can do, said once, and the frames of the meanings that later proofs
compose. -/

namespace Sys2Proof.Machine

/-- A step answers a next state in one of three ways: nothing was issued, an operation was performed, or an
illegal word was answered. -/
theorem step_cases {s t : State} (h : step s = .next t) :
    ((sampleInputs s).cmdValid = false ∧ t = sampleInputs s) ∨
    ((sampleInputs s).cmdValid = true ∧
      ∃ i, decode (sampleInputs s).cfg.hasTestPort (sampleInputs s).cmd = .ok i ∧
        exec i (sampleInputs s) = .next t) ∨
    ((sampleInputs s).cmdValid = true ∧
      ∃ e, decode (sampleInputs s).cfg.hasTestPort (sampleInputs s).cmd = .error e ∧
        t = raiseIllegal (sampleInputs s)) := by
  unfold step at h
  split at h
  · rename_i v
    unfold perform at h
    split at h
    · exact .inr (.inl ⟨v, _, ‹_›, h⟩)
    · exact .inr (.inr ⟨v, _, ‹_›, by injection h with h; exact h.symm⟩)
  · rename_i v
    exact .inl ⟨by simpa using v, by injection h with h; exact h.symm⟩

/-- RDSLOT changes nothing but the response, legal or not. -/
theorem execRdslot_next (idx : BitVec 6) (s : State) :
    ∃ r e, execRdslot idx s = .next { s with result := r, err := e } := by
  unfold execRdslot
  split
  · exact ⟨_, _, rfl⟩
  · exact ⟨_, _, rfl⟩

theorem slotOperandLegal_lt {idx : BitVec 6} {s : State} (h : slotOperandLegal idx s = true) :
    idx.toNat < bufLen := by
  simp only [slotOperandLegal, slotExists, Bool.and_eq_true, decide_eq_true_eq] at h
  exact h.2

/-- WRSLOT with a legal operand writes its slot and the response. -/
theorem execWrslot_legal {idx : BitVec 6} {s : State} (h : slotOperandLegal idx s = true) (v : Bool) :
    execWrslot idx v s = .next (respond 0 { s with buf := s.buf.writeSlot idx.toNat v }) := by
  simp only [execWrslot, h, if_true, storeSlot_of_exists (slotOperandLegal_lt h), andThen_next]

/-- WRSLOT with an operand that the block does not have is illegal. -/
theorem execWrslot_illegal {idx : BitVec 6} {s : State} (h : slotOperandLegal idx s = false) (v : Bool) :
    execWrslot idx v s = .next (raiseIllegal s) := by
  simp [execWrslot, h]

end Sys2Proof.Machine
end

