-- ==== Sys2Proof/Machine/Assembler.lean ====
section
/-! DEFINITION. Programs for the block: the lines and the pseudo-instructions of 30_encoding.md R79 and
R80 as abstract syntax, their expansion, the inputs they stand for, the text of a line and the reader of
such text. Nothing of `step` depends on this file (notes/assumptions/9.md). -/

namespace Sys2Proof.Machine

/-- One operation with the values on `NOW` and `LINE` when it is performed (30_encoding.md R79). -/
structure AsmOp where
  now : Nat
  line : Bool
  instr : Instr
deriving DecidableEq, Repr

/-- A line of a program: an operation or a pseudo-instruction (30_encoding.md R79, R80). -/
inductive AsmLine where
  /-- `@now [L=line] MNEMONIC operands`. -/
  | op (now : Nat) (line : Bool) (instr : Instr)
  /-- `@t PULSE w`: one pulse of width `w` ms that starts at `t`. -/
  | pulse (t w : Nat)
  /-- `@t SECOND b`: one DCF77 second that carries the bit `b`. -/
  | second (t : Nat) (b : Bool)
  /-- `@t LOADBITS lo, bits`: a run of slots written through the test port. -/
  | loadBits (t lo : Nat) (bits : List Bool)
deriving DecidableEq, Repr

/-- LOADBITS needs `lo + len − 1 ≤ 60` (30_encoding.md R80); operands are legal (R79). -/
def AsmLine.wellFormed : AsmLine → Bool
  | .op _ _ i => i.wellFormed true
  | .pulse _ _ => true
  | .second _ _ => true
  | .loadBits _ lo bits => decide (lo + bits.length ≤ bufLen)

/-- The two edges of a pulse (30_encoding.md R80). -/
def expandPulse (t w : Nat) : List AsmOp := [⟨t, true, .edge⟩, ⟨t + w, false, .edge⟩]

/-- `WRSLOT lo+k, bits[k]` for each bit in turn (30_encoding.md R80). -/
def expandBits (t lo : Nat) : List Bool → List AsmOp
  | [] => []
  | b :: bs => ⟨t, false, .wrslot (BitVec.ofNat 6 lo) b⟩ :: expandBits t (lo + 1) bs

/-- The expansion of a line (30_encoding.md R80). -/
def AsmLine.expand : AsmLine → List AsmOp
  | .op now line i => [⟨now, line, i⟩]
  | .pulse t w => expandPulse t w
  | .second t b => expandPulse t (if b then 200 else 100)
  | .loadBits t lo bits => expandBits t lo bits

/-- The agent that issues an operation on a correct platform (00_scope.md R12). -/
def agentOf : Instr → Agent
  | .edge => .edgeSource
  | .nop => .consumer
  | .start => .consumer
  | .stop => .consumer
  | .restart => .consumer
  | .hasSignal => .consumer
  | .isValid => .consumer
  | .getSecond => .consumer
  | .getMinute => .consumer
  | .getHour => .consumer
  | .getMinuteOfDay => .consumer
  | .rdslot _ => .consumer
  | .wrslot _ _ => .consumer

/-- The input that an operation of a program stands for, on a clock of `w` bits. The spec does not say what a
time of `2^w` or more puts on `NOW`; that it is taken modulo `2^w`, as the clock itself wraps, is a DESIGN
CHOICE of the model (notes/assumptions/9.md). -/
def AsmOp.toInput (w : Nat) (o : AsmOp) : Input w :=
  .issue (agentOf o.instr) (encode o.instr) (BitVec.ofNat w o.now) o.line

/-- The inputs of a whole program, in order. -/
def programInputs (w : Nat) (p : List AsmLine) : List (Input w) :=
  (p.flatMap AsmLine.expand).map (AsmOp.toInput w)

/-- The operands of an operation as text, decimal (30_encoding.md R79). -/
def operandText : Instr → String
  | .rdslot idx => " " ++ toString idx.toNat
  | .wrslot idx v => " " ++ toString idx.toNat ++ ", " ++ (if v then "1" else "0")
  | .edge => ""
  | .nop => ""
  | .start => ""
  | .stop => ""
  | .restart => ""
  | .hasSignal => ""
  | .isValid => ""
  | .getSecond => ""
  | .getMinute => ""
  | .getHour => ""
  | .getMinuteOfDay => ""

/-- `L=` is required for EDGE and ignored by every other operation (30_encoding.md R79). -/
def levelText (line : Bool) (i : Instr) : String :=
  if i = .edge then (if line then "L=1 " else "L=0 ") else ""

/-- A line's text (30_encoding.md R79, R80), without a comment. -/
def AsmLine.text : AsmLine → String
  | .op now line i => "@" ++ toString now ++ " " ++ levelText line i ++ i.mnemonic ++ operandText i
  | .pulse t w => "@" ++ toString t ++ " PULSE " ++ toString w
  | .second t b => "@" ++ toString t ++ " SECOND " ++ (if b then "1" else "0")
  | .loadBits t lo bits =>
    "@" ++ toString t ++ " LOADBITS " ++ toString lo ++ ", \"" ++
      String.join (bits.map fun b => if b then "1" else "0") ++ "\""

/-! ### Reading a line (30_encoding.md R79) -/

/-- Puts a finished word before the rest. -/
def flushToken (acc : List Char) (rest : List (List Char)) : List (List Char) :=
  if acc = [] then rest else acc.reverse :: rest

/-- The words of a line: blanks separate, a comma is a word of its own, a semicolon begins the comment. -/
def tokens (acc : List Char) : List Char → List (List Char)
  | [] => flushToken acc []
  | c :: cs =>
    if c = ';' then flushToken acc []
    else if c = ' ' ∨ c = '\t' then flushToken acc (tokens [] cs)
    else if c = ',' then flushToken acc ([','] :: tokens [] cs)
    else tokens (c :: acc) cs

/-- The value of a digit, decimal or hexadecimal. -/
def digitValue (c : Char) : Option Nat :=
  if '0' ≤ c ∧ c ≤ '9' then some (c.toNat - 48)
  else if 'a' ≤ c ∧ c ≤ 'f' then some (c.toNat - 87)
  else if 'A' ≤ c ∧ c ≤ 'F' then some (c.toNat - 55)
  else none

/-- The number that digits in a base stand for, most significant first, `n` so far. -/
def readDigits (base n : Nat) : List Char → Option Nat
  | [] => some n
  | c :: cs =>
    match digitValue c with
    | some d => if d < base then readDigits base (base * n + d) cs else none
    | none => none

/-- A number, decimal, or hexadecimal after `0x` (30_encoding.md R79). -/
def readNumber : List Char → Option Nat
  | [] => none
  | ['0', 'x'] => none
  | '0' :: 'x' :: cs => readDigits 16 0 cs
  | cs => readDigits 10 0 cs

/-- A bit, 0 or 1. -/
def readBit (cs : List Char) : Option Bool :=
  match readNumber cs with
  | some 0 => some false
  | some 1 => some true
  | _ => none

/-- The bits of a LOADBITS string, up to its closing quotation mark. -/
def readBits : List Char → Option (List Bool)
  | [] => none
  | [q] => if q = Char.ofNat 34 then some [] else none
  | c :: cs =>
    match readBits cs with
    | some bs => if c = '0' then some (false :: bs) else if c = '1' then some (true :: bs) else none
    | none => none

/-- A quoted LOADBITS string. -/
def readQuoted : List Char → Option (List Bool)
  | [] => none
  | q :: cs => if q = Char.ofNat 34 then readBits cs else none

/-- A slot operand, 0..60 (30_encoding.md R79). -/
def readSlotNumber (cs : List Char) : Option (BitVec 6) :=
  match readNumber cs with
  | some n => if n < bufLen then some (BitVec.ofNat 6 n) else none
  | none => none

/-- The operation of a mnemonic without operands. -/
def readPlain (cs : List Char) : Option Instr :=
  [Instr.nop, .edge, .start, .stop, .restart, .hasSignal, .isValid, .getSecond, .getMinute, .getHour,
    .getMinuteOfDay].find? fun i => i.mnemonic.toList = cs

/-- The words after the time and the level. `L=` is required for EDGE (30_encoding.md R79). -/
def readOperation (now : Nat) (level : Option Bool) : List (List Char) → Option AsmLine
  | [m] =>
    match readPlain m with
    | some i => if i = .edge ∧ level = none then none else some (.op now (level.getD false) i)
    | none => none
  | [m, a] =>
    if m = "RDSLOT".toList then (readSlotNumber a).map fun k => .op now (level.getD false) (.rdslot k)
    else if m = "PULSE".toList then (readNumber a).map fun w => .pulse now w
    else if m = "SECOND".toList then (readBit a).map fun b => .second now b
    else none
  | [m, a, [','], b] =>
    if m = "WRSLOT".toList then
      match readSlotNumber a, readBit b with
      | some k, some v => some (.op now (level.getD false) (.wrslot k v))
      | _, _ => none
    else if m = "LOADBITS".toList then
      match readNumber a, readQuoted b with
      | some lo, some bits =>
        if (AsmLine.loadBits now lo bits).wellFormed then some (.loadBits now lo bits) else none
      | _, _ => none
    else none
  | _ => none

/-- The words after the time: an optional `L=0` or `L=1`, then the operation. A pseudo-instruction names its
own levels, so an `L=` before one is dropped (notes/assumptions/9.md). -/
def readLevel (now : Nat) : List (List Char) → Option AsmLine
  | ('L' :: '=' :: b) :: rest =>
    match readBit b with
    | some l => readOperation now (some l) rest
    | none => none
  | rest => readOperation now none rest

/-- Reads one line of a program (30_encoding.md R79, R80), or nothing where the text is no such line. -/
def readLine (text : List Char) : Option AsmLine :=
  match tokens [] text with
  | ('@' :: t) :: rest =>
    match readNumber t with
    | some now => readLevel now rest
    | none => none
  | _ => none

end Sys2Proof.Machine
end

