-- ==== Sys2Proof/Tests/Slice0.lean ====
section
/-! SUPPORT. Tests. Every expected value comes from the spec: the encoding of 30_encoding.md, or the vector of
95_test_vectors.md that the test's comment names. After them, one witness for the hypotheses of each
statement that has any. -/

namespace Sys2Proof.Tests

open Sys2Proof.Machine

/-- Whether `o` is a next state that satisfies `p`. -/
def after (o : Result) (p : State → Bool) : Bool :=
  match o with
  | .next t => p t
  | .fault _ => false
  | .refused _ => false

/-- The base state B of 95_test_vectors.md 2.2. -/
def stateB : State :=
  { State.reset with
    edgeEn := true, tStartPrev := 9000, tStartCur := 10000, tEnd := 10100, quality := true,
    cursor := 10, tSync := 1000, tExpiry := 301000 }

/-- The 14:37 frame of 95_test_vectors.md program P2, by its slots that hold 1. -/
def frame1437 : Memory := [20, 21, 22, 23, 25, 26, 28, 31, 33].map fun k => (k, 1)

/-- The end state of 95_test_vectors.md program P2, at the time of V-01. -/
def stateV : State :=
  { State.reset with
    tStartPrev := 94000, tStartCur := 95000, tEnd := 95100, quality := true, cursor := 35,
    tSync := 60000, tExpiry := 360000, buf := frame1437, powerEn := true, edgeEn := true, now := 95500 }

/-- State B about to perform an EDGE at `now` with the line at `line`. -/
def atB (now : Nat) (line : Bool) : State := { stateB with now := BitVec.ofNat 32 now, line := line }

/-- State B with a pulse in progress, about to perform an EDGE. -/
def atBHigh (now : Nat) (line : Bool) : State := { atB now line with lvlPrev := true }

/-! ### Well-formedness: an ill-formed term for each check -/

theorem test_wf_rejects_rdslot_61 : (Instr.rdslot 61).wellFormed true = false := by decide
theorem test_wf_rejects_wrslot_63 : (Instr.wrslot 63 true).wellFormed true = false := by decide
theorem test_wf_rejects_rdslot_without_port : (Instr.rdslot 0).wellFormed false = false := by decide
theorem test_wf_rejects_wrslot_without_port : (Instr.wrslot 0 false).wellFormed false = false := by decide
theorem test_wf_accepts_slot_60 : (Instr.wrslot 60 true).wellFormed true = true := by decide

/-! ### Decoding: words written out from 30_encoding.md R70 and R73 -/

theorem test_decode_nop : decode true 0b0000000000000000 = .ok .nop := by decide
theorem test_decode_edge : decode true 0b0000000000000001 = .ok .edge := by decide
theorem test_decode_start : decode true 0b0000000000000010 = .ok .start := by decide
theorem test_decode_stop : decode true 0b0000000000000011 = .ok .stop := by decide
theorem test_decode_restart : decode true 0b0000000000000100 = .ok .restart := by decide
theorem test_decode_hasSignal : decode true 0b0000000000000101 = .ok .hasSignal := by decide
theorem test_decode_isValid : decode true 0b0000000000000110 = .ok .isValid := by decide
theorem test_decode_getSecond : decode true 0b0000000000000111 = .ok .getSecond := by decide
theorem test_decode_getMinute : decode true 0b0000000000001000 = .ok .getMinute := by decide
theorem test_decode_getHour : decode true 0b0000000000001001 = .ok .getHour := by decide
theorem test_decode_getMinuteOfDay : decode true 0b0000000000001010 = .ok .getMinuteOfDay := by decide
/-- RR=00 IDX=111100 RSV0=000 V=0 OP=1011 (vector D-11). -/
theorem test_decode_rdslot : decode true 0b0011110000001011 = .ok (.rdslot 60) := by decide
/-- RR=00 IDX=010100 RSV0=000 V=1 OP=1100 (vector D-15). -/
theorem test_decode_wrslot : decode true 0b0001010000011100 = .ok (.wrslot 20 true) := by decide

/-- Vectors D-04 to D-10, D-12 to D-14 and D-17. -/
theorem test_decode_illegal :
    decode true 0x000D = .error .reservedOp ∧ decode true 0x000F = .error .reservedOp ∧
    decode true 0x0011 = .error .strayOperand ∧ decode true 0x0101 = .error .strayOperand ∧
    decode true 0x0021 = .error .reservedBits ∧ decode true 0x4006 = .error .reservedBits ∧
    decode true 0xFFFF = .error .reservedBits ∧ decode true 0x3D0B = .error .slotOutOfRange ∧
    decode true 0x3F0C = .error .slotOutOfRange ∧ decode true 0x141B = .error .strayOperand ∧
    decode false 0x000B = .error .noTestPort := by decide

/-- The words of program P3 on an 8-bit transport, low byte first (20_memory.md R53). That the lone byte left
is refused is the model's choice (notes/assumptions/10.md). -/
theorem test_decode_bytes :
    decodeBytes true [0x1C, 0x1C, 0x0B] = .ok (.wrslot 28 true, [0x0B]) ∧
    decodeBytes true [0x0B] = .error .truncated := by decide

theorem test_table_word : decodeTableWord 16 0x1C0B = some (.rdslot 28) := by decide

/-! ### Operations -/

/-- Program P1 step 1. -/
theorem test_nop : after (exec .nop { stateV with result := 7, err := true })
    (fun t => t.result == 0 && t.err == false && t.cursor == 35) = true := by decide

/-- Vector E-03. -/
theorem test_edge_sync : after (exec .edge (atB 11501 true)) (fun t =>
    t.lvlPrev && t.tStartPrev == 10000 && t.tStartCur == 11501 && t.cursor == 0 && t.tSync == 11501 &&
      t.tExpiry == 311501) = true := by decide

/-- Vectors E-08, then E-12. -/
theorem test_edge_fall_and_reject :
    after (exec .edge (atBHigh 10181 false)) (fun t =>
      t.slot 10 && !t.lvlPrev && t.tEnd == 10181) = true ∧
    after (exec .edge { atBHigh 10699 false with tStartPrev := 10000, tStartCur := 10300 })
      (fun t => !t.quality && t.lvlPrev && t.tEnd == 10100 && t.buf == []) = true := by decide

/-- Vector Y-02. -/
theorem test_start : after (exec .start stateV) (fun t =>
    t.powerOut && t.edgeEnable && t.buf == [] && t.tSync == 0 && t.cursor == 0) = true := by decide

/-- Vector Y-05. -/
theorem test_stop : after (exec .stop stateV) (fun t =>
    !t.powerOut && !t.edgeEnable && t.buf == [] && t.tExpiry == 0 && !t.quality) = true := by decide

/-- Vector Y-03. -/
theorem test_restart : after (exec .restart stateV) (fun t =>
    t.powerOut && t.edgeEnable && t.buf == [] && t.tStartCur == 0) = true := by decide

/-- Vectors H-01, H-02. -/
theorem test_hasSignal :
    after (exec .hasSignal { stateV with now := 97500 }) (fun t => t.result == 1 && t.quality) = true ∧
    after (exec .hasSignal { stateV with now := 97501 }) (fun t => t.result == 0 && !t.quality) = true := by
  decide

/-- Vectors V-01, V-04. -/
theorem test_isValid :
    after (exec .isValid stateV) (fun t => t.result == 1) = true ∧
    after (exec .isValid { stateV with now := 360000 }) (fun t => t.result == 0) = true := by decide

/-- Vectors V-05, F-04. -/
theorem test_isValid_fails :
    after (exec .isValid { stateV with cursor := 34 }) (fun t => t.result == 0) = true ∧
    after (exec .isValid { stateV with buf := frame1437.writeSlot 28 false })
      (fun t => t.result == 0) = true := by decide

/-- Program P2. -/
theorem test_getSecond : after (exec .getSecond stateV) (fun t => t.result == 35) = true := by decide

/-- Vectors T-01, T-02. -/
theorem test_getMinute :
    after (exec .getMinute stateV) (fun t => t.result == 36) = true ∧
    after (exec .getMinute State.reset) (fun t => t.result == 59) = true := by decide

/-- Vectors T-01, T-02. -/
theorem test_getHour :
    after (exec .getHour stateV) (fun t => t.result == 14) = true ∧
    after (exec .getHour State.reset) (fun t => t.result == 23) = true := by decide

/-- Vectors T-01, T-09. -/
theorem test_getMinuteOfDay :
    after (exec .getMinuteOfDay stateV) (fun t => t.result == 876) = true ∧
    after (exec .getMinuteOfDay { stateV with buf := (List.range' 21 14).map fun k => (k, 1) })
      (fun t => t.result == 2784) = true := by decide

/-- Vectors X-01, X-02. -/
theorem test_rdslot :
    after (exec (.rdslot 20) stateV) (fun t => t.result == 1) = true ∧
    after (exec (.rdslot 24) stateV) (fun t => t.result == 0) = true := by decide

/-- Vectors X-03, X-04. -/
theorem test_wrslot :
    after (exec (.wrslot 28 false) stateV) (fun t => !t.slot 28 && t.slot 26 && t.slot 31) = true ∧
    after (exec (.wrslot 60 true) stateV) (fun t => t.slot 60 && t.buf.length == 10) = true := by decide

/-! ### Steps and programs -/

/-- Program P1 step 4, as the first operation after reset. -/
theorem test_step_start : after (step (State.reset.withFetchWord 16 0x0002))
    (fun t => t.powerOut && t.cmdValid && t.pending == []) = true := by decide

/-- Vector X-05. -/
theorem test_step_illegal : after (step (stateV.withFetchWord 16 0x3D0B))
    (fun t => t.err && t.result == 0 && t.buf == frame1437 && t.cursor == 35) = true := by decide

/-- 30_encoding.md R79, R80: the text of a line, and SECOND as two edges, 200 ms apart for a 1. -/
theorem test_assembler :
    (AsmLine.op 57000 true .edge).text = "@57000 L=1 EDGE" ∧
    (AsmLine.second 80000 true).expand = [⟨80000, true, .edge⟩, ⟨80200, false, .edge⟩] ∧
    (AsmLine.loadBits 5 20 [true, false]).expand =
      [⟨5, false, .wrslot 20 true⟩, ⟨5, false, .wrslot 21 false⟩] := by decide

/-- 30_encoding.md R79: lines as 95_test_vectors.md programs P1 to P3 write them, and an EDGE without its
level. -/
theorem test_assembler_reads :
    readLine "@3000 L=1 EDGE ; false sync".toList = some (.op 3000 true .edge) ∧
    readLine "@95600 WRSLOT 28, 0".toList = some (.op 95600 false (.wrslot 28 false)) ∧
    readLine "@5000 RDSLOT 0x3C".toList = some (.op 5000 false (.rdslot 60)) ∧
    readLine "@80000 SECOND 1".toList = some (.second 80000 true) ∧
    readLine "@5 LOADBITS 20, \"10\"".toList = some (.loadBits 5 20 [true, false]) ∧
    readLine "@3000 EDGE".toList = none := by decide

/-! ### Witnesses: states and operands that meet the hypotheses of the statements, at the limits of the rules -/

theorem witness_DecodeOfEncodeIsTheInstruction : (Instr.wrslot 60 true).wellFormed true = true := by decide

theorem witness_EncodeOfDecodeIsTheWord : decode true 0x3C1C = .ok (.wrslot 60 true) := by decide

theorem witness_EachWordMatchesItsMaskAndRange : plainInstrs[10]? = some .getMinuteOfDay := by decide

theorem witness_CommandBytesGoLowByteFirst : (Instr.rdslot 60).wellFormed true = true := by decide

/-- State V with one word to perform. -/
def issuing (c : Word) : State := { stateV with pending := [.issue .consumer c 95600 false] }

theorem witness_StepPerformsTheDecodedOperation :
    ∃ (s : State) (a : Agent) (c : Word) (n : Timestamp s.cfg.tsWidth) (l : Bool)
      (rest : List (Input s.cfg.tsWidth)) (i : Instr),
      s.pending = .issue a c n l :: rest ∧ decode s.cfg.hasTestPort c = .ok i :=
  ⟨issuing 0x3C0B, _, _, _, _, _, .rdslot 60, rfl, by decide⟩

theorem witness_IllegalWordAnswersErrAndWritesNothing :
    ∃ (s : State) (a : Agent) (c : Word) (n : Timestamp s.cfg.tsWidth) (l : Bool)
      (rest : List (Input s.cfg.tsWidth)),
      s.pending = .issue a c n l :: rest ∧ wordIsIllegal s.cfg.hasTestPort c :=
  ⟨issuing 0x3D0B, _, _, _, _, _, rfl, by unfold wordIsIllegal; decide⟩

theorem witness_LegalWordCompletesWithoutErr :
    ∃ (s : State) (a : Agent) (c : Word) (n : Timestamp s.cfg.tsWidth) (l : Bool)
      (rest : List (Input s.cfg.tsWidth)),
      s.pending = .issue a c n l :: rest ∧ ¬ wordIsIllegal s.cfg.hasTestPort c ∧ s.cursorOk :=
  ⟨issuing 0x3C0B, _, _, _, _, _, rfl, by unfold wordIsIllegal; decide, by decide⟩

theorem witness_StepTakesExactlyTheNextInput :
    ∃ (s t : State) (x : Input s.cfg.tsWidth) (rest : List (Input s.cfg.tsWidth)),
      s.pending = x :: rest ∧ step s = .next t :=
  ⟨issuing 0x0000, _, _, _, rfl, rfl⟩

theorem witness_PowerOnValuesAndHeldOutputs :
    State.reset.pending = [] ∧
    ∃ (s : State) (n : Timestamp s.cfg.tsWidth) (l : Bool) (rest : List (Input s.cfg.tsWidth)),
      s.pending = .idle n l :: rest :=
  ⟨rfl, { stateV with pending := [.idle 95600 true] }, _, _, _, rfl⟩

theorem witness_PlatformResetRestoresPowerOnValues :
    ∃ (s : State) (rest : List (Input s.cfg.tsWidth)), s.pending = .reset :: rest :=
  ⟨{ stateV with pending := [.reset] }, _, rfl⟩

theorem witness_AfterStopEveryQueryAnswersCleared : ∃ s t : State, exec .stop s = .next t :=
  ⟨stateV, _, rfl⟩

theorem witness_EdgeIsDroppedWhileNotEnabled : ∃ s : State, s.edgeEn = false :=
  ⟨{ atB 11000 true with edgeEn := false }, rfl⟩

theorem witness_NoiseRuleOneRejectsTheEdge :
    ∃ s : State, s.edgeEn = true ∧ (s.now - s.tStartPrev).toNat < 700 :=
  ⟨{ atBHigh 10699 false with tStartPrev := 10000, tStartCur := 10300 }, by decide⟩

theorem witness_NoiseRuleTwoRejectsTheEdge :
    ∃ s : State, s.edgeEn = true ∧ 700 ≤ (s.now - s.tStartPrev).toNat ∧
      (s.now - s.tStartCur).toNat < 50 :=
  ⟨atBHigh 10049 false, by decide⟩

theorem witness_RisingEdgeAfterALongGapSyncs :
    ∃ s : State, s.edgeAccepted ∧ s.lvlPrev = false ∧ s.line = true ∧
      1500 < (s.now - s.tStartCur).toNat :=
  ⟨atB 11501 true, by decide⟩

theorem witness_RisingEdgeAfterAShortGapTicks :
    ∃ s : State, s.edgeAccepted ∧ s.lvlPrev = false ∧ s.line = true ∧
      (s.now - s.tStartCur).toNat ≤ 1500 :=
  ⟨{ atB 11500 true with cursor := 60 }, by decide⟩

/-- A width of 180 ms, the widest short pulse, and one of 181 ms. -/
theorem witness_FallingEdgeStoresThePulseClass :
    (∃ s : State, s.edgeAccepted ∧ s.cursorOk ∧ s.lvlPrev = true ∧ s.line = false ∧
      ¬ 180 < (s.now - s.tStartCur).toNat) ∧
    ∃ s : State, s.edgeAccepted ∧ s.cursorOk ∧ s.lvlPrev = true ∧ s.line = false ∧
      180 < (s.now - s.tStartCur).toNat :=
  ⟨⟨atBHigh 10180 false, by decide⟩, ⟨{ atBHigh 10181 false with cursor := 60 }, by decide⟩⟩

theorem witness_SameLevelEdgeOnlySetsQuality :
    ∃ s : State, s.edgeAccepted ∧ s.line = s.lvlPrev :=
  ⟨atB 10050 false, by decide⟩

/-- At the cursor 60: an accepted falling edge, an accepted rising edge, and a rejected edge. -/
theorem witness_EdgeAlwaysCompletesWithinItsFrame :
    (∃ s : State, s.cursorOk ∧ s.cursor = 60 ∧ s.edgeAccepted ∧ s.lvlPrev = true ∧ s.line = false) ∧
    (∃ s : State, s.cursorOk ∧ s.cursor = 60 ∧ s.edgeAccepted ∧ s.lvlPrev = false ∧ s.line = true) ∧
    ∃ s : State, s.cursorOk ∧ s.cursor = 60 ∧ ¬ s.edgeAccepted :=
  ⟨⟨{ atBHigh 10181 false with cursor := 60 }, by decide⟩, ⟨{ atB 11000 true with cursor := 60 }, by decide⟩,
    ⟨{ atBHigh 10049 false with cursor := 60 }, by decide⟩⟩

theorem witness_FirstPulseAfterStartSyncs :
    ∃ (s t : State) (n : Timestamp t.cfg.tsWidth), exec .start s = .next t ∧ 1500 < n.toNat :=
  ⟨stateV, _, (1501 : BitVec 32), rfl, by decide⟩

theorem witness_OnAForwardClockALongGapAlwaysSyncs :
    ∃ s : State, s.edgeEn = true ∧ s.lvlPrev = false ∧ s.line = true ∧ s.tStartPrev ≤ s.tStartCur ∧
      s.tStartCur ≤ s.now ∧ s.tStartCur.toNat + 1500 < s.now.toNat :=
  ⟨atB 11501 true, by decide⟩

theorem witness_SyncAtTimeZeroLooksUnset :
    ∃ s : State, s.cfg.ok ∧ s.edgeAccepted ∧ s.lvlPrev = false ∧ s.line = true ∧ s.now = 0 ∧
      1500 < (s.now - s.tStartCur).toNat :=
  ⟨{ atB 0 true with tStartPrev := 4294963296, tStartCur := 4294965296 }, by decide⟩

/-- A gap of 699 ms for rule 1, and one of 49 ms for rule 2. -/
theorem witness_AfterARejectedRiseTheFallWritesNoSlot :
    (∃ s t : State, s.edgeEn = true ∧ s.lvlPrev = false ∧ (s.now - s.tStartPrev).toNat < 700 ∧
      exec .edge s = .next t) ∧
    ∃ s t : State, s.edgeEn = true ∧ s.lvlPrev = false ∧ (s.now - s.tStartCur).toNat < 50 ∧
      exec .edge s = .next t :=
  ⟨⟨{ atB 10699 true with tStartPrev := 10000 }, _, by decide, by decide, by decide, rfl⟩,
    ⟨atB 10049 true, _, by decide, by decide, by decide, rfl⟩⟩

theorem witness_TheLaterSlotWriteWins :
    ∃ s : State, s.edgeAccepted ∧ s.cursorOk ∧ s.lvlPrev = true ∧ s.line = false ∧
      s.cfg.hasTestPort = true :=
  ⟨{ atBHigh 10181 false with cursor := 60 }, by decide⟩

/-- Silences of 2501 ms and of 2500 ms. -/
theorem witness_HasSignalClearsQualityAfterSilence :
    (∃ s : State, 2500 < (s.now - s.tStartCur).toNat) ∧
    ∃ s : State, (s.now - s.tStartCur).toNat ≤ 2500 ∧ s.quality = true :=
  ⟨⟨{ stateV with now := 97501 }, by decide⟩, ⟨{ stateV with now := 97500 }, by decide⟩⟩

theorem witness_HasSignalAndEdgeInEitherOrder :
    ∃ (s : State) (n : Timestamp s.cfg.tsWidth), s.edgeEn = true ∧ s.lvlPrev = false ∧
      700 ≤ (n - s.tStartPrev).toNat ∧ 2500 < (n - s.tStartCur).toNat :=
  ⟨stateV, (97501 : BitVec 32), by decide⟩

theorem witness_ValidFrameHasEvenParityFields :
    ∃ s t : State, exec .isValid s = .next t ∧ t.result = 1 := ⟨stateV, _, rfl, by decide⟩

/-- The checked slots 0 and 35, and the slots 19 and 60 that no check reads. -/
theorem witness_AnySingleFlipOfACheckedSlotInvalidates :
    ∃ s t : State, s.cfg.hasTestPort = true ∧ exec .isValid s = .next t ∧ t.result = 1 ∧
      ∀ k ∈ [(0 : BitVec 6), 35, 19, 60], k.toNat ≤ 60 :=
  ⟨stateV, _, rfl, rfl, by decide, by decide⟩

theorem witness_frameGood : frameGood stateV := by unfold frameGood; decide

/-- The last valid millisecond and the first stale one. -/
theorem witness_FreshnessLastsThreeHundredThousandMs : ∀ n ∈ [(359999 : BitVec 32), 360000],
    ∃ s : State, s.cfg.ok ∧ s.tSync ≠ 0 ∧ 35 ≤ s.cursor.toNat ∧ frameGood s ∧
      s.tExpiry = s.tSync + BitVec.ofNat s.cfg.tsWidth 300000 ∧
      s.tSync.toNat + 300000 < 2 ^ s.cfg.tsWidth ∧ s.tSync ≤ s.now ∧ s.now.toNat = n.toNat := by
  intro n hn
  simp only [List.mem_cons, List.not_mem_nil, or_false] at hn
  rcases hn with rfl | rfl
  · exact ⟨{ stateV with now := 359999 }, by decide, by decide, by decide, witness_frameGood, by decide,
      by decide, by decide, rfl⟩
  · exact ⟨{ stateV with now := 360000 }, by decide, by decide, by decide, witness_frameGood, by decide,
      by decide, by decide, rfl⟩

/-- Vectors V-08 to V-10: the wrapped expiry is 200000. -/
theorem witness_ExpiryWrapsBeforeTheClock :
    ∃ s u : State, (∀ x ∈ [s, u], x.cfg.ok ∧ 2 ^ x.cfg.tsWidth - 300000 ≤ x.tSync.toNat ∧
      x.tExpiry = x.tSync + BitVec.ofNat x.cfg.tsWidth 300000 ∧ 35 ≤ x.cursor.toNat ∧ frameGood x) ∧
      s.tExpiry ≤ s.now ∧ u.now < u.tExpiry := by
  refine ⟨{ stateV with tSync := 4294867296, tExpiry := 200000, now := 200000 },
    { stateV with tSync := 4294867296, tExpiry := 200000, now := 199999 }, ?_, by decide, by decide⟩
  intro x hx
  simp only [List.mem_cons, List.not_mem_nil, or_false] at hx
  rcases hx with rfl | rfl <;>
    exact ⟨by decide, by decide, by decide, by decide, witness_frameGood⟩

theorem witness_InRangeFieldsGiveOneTimeOfDay :
    ∃ s : State, hourFieldNum s ≤ 23 ∧ minuteFieldNum s ≤ 59 :=
  ⟨{ stateV with buf := [21, 24, 25, 27, 29, 30, 34].map fun k => (k, 1) }, by decide⟩

/-- Another buffer that agrees on the slots read: slot 60 differs. -/
theorem witness_QueriesReadOnlyTheirOwnSlots :
    ∃ (s : State) (m : Memory), m.readSlot 60 ≠ s.slot 60 ∧
      (∀ k, k ≤ 35 → m.readSlot k = s.slot k) :=
  ⟨stateV, frame1437 ++ [(60, 1)], by decide, by decide⟩

theorem witness_RdslotReadsTheSlot :
    (∃ (s : State) (idx : BitVec 6), s.cfg.hasTestPort = true ∧ idx.toNat ≤ 60) ∧
    ∃ w : Word, w.toNat % 16 = 11 ∧ ∀ idx, decode true w ≠ .ok (.rdslot idx) :=
  ⟨⟨stateV, 60, by decide⟩, ⟨0x3D0B, rfl, by decide⟩⟩

theorem witness_WrslotWritesExactlyTheSlot :
    (∃ (s : State) (idx : BitVec 6), s.cfg.hasTestPort = true ∧ idx.toNat ≤ 60) ∧
    ∃ w : Word, w.toNat % 16 = 12 ∧ ∀ idx v, decode true w ≠ .ok (.wrslot idx v) :=
  ⟨⟨stateV, 60, by decide⟩, ⟨0x3D0C, rfl, by decide⟩⟩

theorem witness_MissingSlotOrTestPortIsIllegal :
    (∃ s : State, s.cfg.hasTestPort = false) ∧ ∃ idx : BitVec 6, 61 ≤ idx.toNat :=
  ⟨⟨{ State.reset with
      cfg := ⟨32, false⟩, tStartPrev := 0, tStartCur := 0, tEnd := 0, tSync := 0, tExpiry := 0, now := 0,
      pending := [] }, rfl⟩, ⟨61, by decide⟩⟩

theorem witness_QueriesHaveNoSideEffectButHasSignal : ∃ i : Instr, ∃ idx, i = .rdslot idx := ⟨.rdslot 61, 61, rfl⟩

/-- A slot changed by each of the three kinds of writers. -/
theorem witness_OnlyTheNamedWritersChangeASlot :
    (∃ s t : State, exec .edge s = .next t ∧ t.slot 10 ≠ s.slot 10) ∧
    (∃ s t : State, exec (.wrslot 60 true) s = .next t ∧ t.slot 60 ≠ s.slot 60) ∧
    ∃ s t : State, exec .restart s = .next t ∧ t.slot 20 ≠ s.slot 20 :=
  ⟨⟨atBHigh 10181 false, _, rfl, by decide⟩, ⟨stateV, _, rfl, by decide⟩, ⟨stateV, _, rfl, by decide⟩⟩

theorem witness_OnlyStartAndStopSwitchTheEnables :
    ∃ (i : Instr) (s t : State), exec i s = .next t ∧ i ≠ .start ∧ i ≠ .stop :=
  ⟨.restart, stateV, _, rfl, by decide, by decide⟩

theorem witness_OnlyTheNamedWritersChangeQuality :
    (∃ s t : State, exec .edge s = .next t ∧ s.quality = false ∧ t.quality = true) ∧
    ∃ s t : State, exec .hasSignal s = .next t ∧ s.quality = true ∧ t.quality = false :=
  ⟨⟨{ atB 11000 true with quality := false }, _, rfl, by decide, by decide⟩,
    ⟨{ stateV with now := 97501 }, _, rfl, by decide, by decide⟩⟩

theorem witness_OnlyASyncOrAClearWritesTheSyncFields :
    ∃ s t : State, exec .edge s = .next t ∧ t.tSync.toNat ≠ s.tSync.toNat :=
  ⟨atB 11501 true, _, rfl, by decide⟩

theorem witness_OperationsKeepTheSampledPorts : ∃ (i : Instr) (s t : State), exec i s = .next t :=
  ⟨.edge, atB 11501 true, _, rfl⟩

/-- State V with an EDGE to come is legal and in time order, and it steps. -/
theorem witness_EveryStepKeepsTheStateLegal : ∃ s t : State, s.Inv ∧ step s = .next t :=
  ⟨issuing 0x0001, _, by decide, rfl⟩

theorem witness_LegalStatesNeverStop : ∃ s : State, s.Inv ∧ s.cursor = 60 :=
  ⟨{ issuing 0x0001 with cursor := 60 }, by decide⟩

theorem witness_EveryStepKeepsTheTimestampsOrdered : ∃ s t : State, s.timeOrdered ∧ step s = .next t :=
  ⟨issuing 0x0001, _, by decide, rfl⟩

theorem witness_EveryStepKeepsPowerAndEdgeEnableEqual :
    ∃ s t : State, s.powerEn = s.edgeEn ∧ step s = .next t :=
  ⟨issuing 0x0003, _, rfl, rfl⟩

end Sys2Proof.Tests
end

section
/-! SUPPORT. The responses that an operation can give: the bound of 30_encoding.md R72, from the slots
up to the renderer's answers. -/

namespace Sys2Proof.Machine

/-- A weighted sum over bits lies between 0 and the sum of its weights. -/
theorem weightedSum_mem_Icc (m : Memory) (ks : List Int) (nonneg : ∀ k ∈ ks, 0 ≤ k) (i : Nat) :
    weightedSum m i ks ∈ Set.Icc 0 ks.sum := by
  induction ks generalizing i with
  | nil => simp [weightedSum]
  | cons k ks ih =>
    obtain ⟨lo, hi⟩ := ih (fun k' hk' => nonneg k' (List.mem_cons_of_mem k hk')) (i + 1)
    have hk : 0 ≤ k := nonneg k List.mem_cons_self
    simp only [weightedSum, List.sum_cons, Set.mem_Icc]
    cases m.readSlot i <;> simp <;> omega

theorem minuteField_mem_Icc (m : Memory) : minuteField m ∈ Set.Icc 0 85 :=
  weightedSum_mem_Icc m [1, 2, 4, 8, 10, 20, 40] (by decide) 21

theorem hourField_mem_Icc (m : Memory) : hourField m ∈ Set.Icc 0 45 :=
  weightedSum_mem_Icc m [1, 2, 4, 8, 10, 20] (by decide) 29

/-- The range of `minute_of_day()` over every buffer (41_queries.md R164). -/
theorem minuteOfDay_mem_Icc (m : Memory) : minuteOfDay m ∈ Set.Icc 0 2784 := by
  obtain ⟨minLo, minHi⟩ := minuteField_mem_Icc m
  obtain ⟨hourLo, hourHi⟩ := hourField_mem_Icc m
  simp only [minuteOfDay, Set.mem_Icc]
  split <;> omega

theorem intResult_toNat_le {n : Int} (h : n ∈ Set.Icc 0 2784) : (intResult n).toNat ≤ 2784 := by
  obtain ⟨lo, hi⟩ := h
  have := intResult_toNat lo (by omega)
  omega

theorem boolResult_toNat_le (b : Bool) : (boolResult b).toNat ≤ 2784 :=
  (boolResult_le b).trans (by decide)

theorem cursorResult_toNat_le (c : BitVec 6) : (c.setWidth 16).toNat ≤ 2784 := by
  rw [BitVec.toNat_setWidth]
  have := c.isLt
  omega

end Sys2Proof.Machine
end

section
/-! SUPPORT. What an operation can do to the state, said once for all thirteen. -/

namespace Sys2Proof.Machine

/-- `OpEffect s i t`: the operation `i` leads from `s` to `t` in one of these twelve ways, and under the
conditions that go with it. `effect_of_exec` ties it to `exec`. -/
inductive OpEffect (s : State) : Instr → State → Prop
  /-- Only a response is given: NOP, the queries, an EDGE dropped at the gate. -/
  | answer {i : Instr} {v : Word} (le : v.toNat ≤ 2784) : OpEffect s i (respond v s)
  /-- An operand that the block does not have (43_test_port.md R200, R201). -/
  | illegal {i : Instr} (ill : i.wellFormed s.cfg.hasTestPort = false) : OpEffect s i (raiseIllegal s)
  /-- HAS_SIGNAL finds the line silent (41_queries.md R140). -/
  | silence (h : silentTooLong s = true) : OpEffect s .hasSignal (respond 0 (setQuality false s))
  /-- 42_lifecycle.md R180. -/
  | start : OpEffect s .start (respond 0 { clearState s with powerEn := true, edgeEn := true })
  /-- 42_lifecycle.md R181. -/
  | stop : OpEffect s .stop (respond 0 { clearState s with powerEn := false, edgeEn := false })
  /-- 42_lifecycle.md R182. -/
  | restart : OpEffect s .restart (respond 0 (clearState s))
  /-- A write through the test port (43_test_port.md R201). -/
  | wrslot {idx : BitVec 6} {v : Bool} (lt : idx.toNat < bufLen) :
      OpEffect s (.wrslot idx v) (respond 0 { s with buf := s.buf.writeSlot idx.toNat v })
  /-- A delivered EDGE fails a noise rule (40_edge_classifier.md R101, R102). -/
  | reject (en : s.edgeEn = true) (noise : ¬ edgeTaken s) : OpEffect s .edge (rejectEdge s)
  /-- A rising edge after a long gap (40_edge_classifier.md R106). -/
  | sync (taken : edgeTaken s) (lv : s.lvlPrev = false) (ln : s.line = true)
      (long : syncMs < sinceStartCur s) :
      OpEffect s .edge (finishEdge (minuteSync (shiftPulseStart (setQuality true s))))
  /-- A rising edge after a short gap (40_edge_classifier.md R107). -/
  | tick (taken : edgeTaken s) (lv : s.lvlPrev = false) (ln : s.line = true)
      (short : ¬ syncMs < sinceStartCur s) :
      OpEffect s .edge (finishEdge (secondTick (shiftPulseStart (setQuality true s))))
  /-- A falling edge stores the class of its pulse (40_edge_classifier.md R109). -/
  | fall (taken : edgeTaken s) (lv : s.lvlPrev = true) (ln : s.line = false)
      (lt : s.cursor.toNat < bufLen) :
      OpEffect s .edge (finishEdge { setQuality true s with
        tEnd := s.now, buf := s.buf.writeSlot s.cursor.toNat (pulseIsLong s) })
  /-- An edge without a change of level (40_edge_classifier.md R110). -/
  | sameLevel (taken : edgeTaken s) (lv : s.line = s.lvlPrev) :
      OpEffect s .edge (finishEdge (setQuality true s))

theorem not_edgeTaken_of_noise {s : State} (h : noiseRule1 s = true ∨ noiseRule2 s = true) :
    ¬ edgeTaken s := by
  rintro ⟨-, n1, n2⟩
  simp [n1, n2] at h

theorem effect_of_execEdge {s t : State} (h : execEdge s = .next t) : OpEffect s .edge t := by
  obtain ⟨-, rfl⟩ | ⟨en, noise, rfl⟩ | ⟨taken, lv, ln, rfl⟩ | ⟨taken, lv, ln, lt, rfl⟩ |
    ⟨taken, lv, rfl⟩ := execEdge_cases h
  · exact .answer (by decide)
  · exact .reject en (not_edgeTaken_of_noise noise)
  · by_cases long : syncMs < sinceStartCur s
    · rw [risingEdge_eq, if_pos (show syncMs < sinceStartCur (setQuality true s) from long)]
      exact .sync taken lv ln long
    · rw [risingEdge_eq, if_neg (show ¬ syncMs < sinceStartCur (setQuality true s) from long)]
      exact .tick taken lv ln long
  · exact .fall taken lv ln lt
  · exact .sameLevel taken lv

theorem effect_of_execHasSignal {s t : State} (h : execHasSignal s = .next t) :
    OpEffect s .hasSignal t := by
  unfold execHasSignal at h
  split at h
  next silent =>
    obtain rfl := Host.Outcome.next.inj h
    exact .silence silent
  next =>
    obtain rfl := Host.Outcome.next.inj h
    exact .answer (boolResult_toNat_le _)

theorem effect_of_execRdslot {idx : BitVec 6} {s t : State} (h : execRdslot idx s = .next t) :
    OpEffect s (.rdslot idx) t := by
  unfold execRdslot at h
  split at h
  next =>
    obtain rfl := Host.Outcome.next.inj h
    exact .answer (boolResult_toNat_le _)
  next notLegal =>
    obtain rfl := Host.Outcome.next.inj h
    exact .illegal (eq_false_of_ne_true notLegal)

theorem effect_of_execWrslot {idx : BitVec 6} {v : Bool} {s t : State}
    (h : execWrslot idx v s = .next t) : OpEffect s (.wrslot idx v) t := by
  cases legal : slotOperandLegal idx s with
  | true =>
    obtain rfl := Host.Outcome.next.inj ((execWrslot_legal legal v).symm.trans h)
    exact .wrslot (slotOperandLegal_lt legal)
  | false =>
    obtain rfl := Host.Outcome.next.inj ((execWrslot_illegal legal v).symm.trans h)
    exact .illegal legal

/-- The inversion of `exec`: where an operation answers a next state, it does so in one of the ways
of `OpEffect`. -/
theorem effect_of_exec {i : Instr} {s t : State} (h : exec i s = .next t) : OpEffect s i t := by
  cases i with
  | edge => exact effect_of_execEdge h
  | hasSignal => exact effect_of_execHasSignal h
  | rdslot idx => exact effect_of_execRdslot h
  | wrslot idx v => exact effect_of_execWrslot h
  | nop => obtain rfl := Host.Outcome.next.inj h; exact .answer (by decide)
  | start => obtain rfl := Host.Outcome.next.inj h; exact .start
  | stop => obtain rfl := Host.Outcome.next.inj h; exact .stop
  | restart => obtain rfl := Host.Outcome.next.inj h; exact .restart
  | isValid => obtain rfl := Host.Outcome.next.inj h; exact .answer (boolResult_toNat_le _)
  | getSecond => obtain rfl := Host.Outcome.next.inj h; exact .answer (cursorResult_toNat_le _)
  | getMinute =>
    obtain rfl := Host.Outcome.next.inj h
    exact .answer (intResult_toNat_le ⟨by omega, by omega⟩)
  | getHour =>
    obtain rfl := Host.Outcome.next.inj h
    exact .answer (intResult_toNat_le ⟨by omega, by omega⟩)
  | getMinuteOfDay =>
    obtain rfl := Host.Outcome.next.inj h
    exact .answer (intResult_toNat_le (minuteOfDay_mem_Icc s.buf))

end Sys2Proof.Machine
end

section
/-! The legal states as an invariant of the step (10_state.md R27, R28): kept by the sampling of an
input, by every operation and by the answer to an illegal word. -/

namespace Sys2Proof.Machine

theorem responseOk_respond {v : Word} (le : v.toNat ≤ 2784) (s : State) :
    (respond v s).responseOk := ⟨by simp, le⟩

theorem inv_raiseIllegal {s : State} (h : s.Inv) : (raiseIllegal s).Inv := by
  obtain ⟨width, cursor, expiry, buf, -⟩ := h
  exact ⟨width, cursor, expiry, buf, fun _ => rfl, Nat.zero_le _⟩

/-- A state whose decoder elements are cleared (10_state.md R33) is legal beside any legal response. -/
theorem inv_of_cleared {s : State} (width : s.cfg.ok) (cursor : s.cursor = 0) (tSync : s.tSync = 0)
    (tExpiry : s.tExpiry = 0) (buf : s.buf = []) (response : s.responseOk) : s.Inv :=
  ⟨width, by simp [cursor], .inl ⟨tSync, tExpiry⟩, buf ▸ wf_nil, response⟩

theorem inv_sampleInputs {s : State} (h : s.Inv) : (sampleInputs s).Inv := by
  obtain ⟨-, e⟩ | ⟨a, cmd, now, line, rest, -, e⟩ | ⟨now, line, rest, -, e⟩ | ⟨rest, -, e⟩ :=
    sampleInputs_cases s
  · rw [e]; exact h
  · rw [e]; exact h
  · rw [e]; exact h
  · obtain ⟨width, -⟩ := h
    rw [e]
    exact inv_of_cleared width rfl rfl rfl rfl ⟨fun _ => rfl, Nat.zero_le _⟩

theorem OpEffect.inv {i : Instr} {s t : State} (e : OpEffect s i t) (h : s.Inv) : t.Inv := by
  have ⟨width, cursor, expiry, buf, _⟩ := h
  have ok0 (u : State) : (respond 0 u).responseOk := responseOk_respond (by decide) u
  cases e with
  | answer le => exact ⟨width, cursor, expiry, buf, responseOk_respond le s⟩
  | illegal _ => exact inv_raiseIllegal h
  | silence _ => exact ⟨width, cursor, expiry, buf, ok0 _⟩
  | start => exact inv_of_cleared width rfl rfl rfl rfl (ok0 _)
  | stop => exact inv_of_cleared width rfl rfl rfl rfl (ok0 _)
  | restart => exact inv_of_cleared width rfl rfl rfl rfl (ok0 _)
  | wrslot lt => exact ⟨width, cursor, expiry, wf_writeSlot buf _ lt, ok0 _⟩
  | reject _ _ => exact ⟨width, cursor, expiry, buf, ok0 _⟩
  | sync _ _ _ _ => exact ⟨width, Nat.zero_le _, .inr rfl, buf, ok0 _⟩
  | tick _ _ _ _ => exact ⟨width, Nat.le_of_lt_succ (nextCursor_lt s.cursor), expiry, buf, ok0 _⟩
  | fall _ _ _ lt => exact ⟨width, cursor, expiry, wf_writeSlot buf _ lt, ok0 _⟩
  | sameLevel _ _ => exact ⟨width, cursor, expiry, buf, ok0 _⟩

/-- Settles O57: the sampling of an input keeps a legal state legal, and so does each of the three
ways in which a step goes on. -/
theorem everyStepKeepsTheStateLegal : Obligations.EveryStepKeepsTheStateLegal := by
  intro s t inv h
  have sampled : (sampleInputs s).Inv := inv_sampleInputs inv
  obtain ⟨-, rfl⟩ | ⟨-, i, -, op⟩ | ⟨-, _, -, rfl⟩ := step_cases h
  · exact sampled
  · exact (effect_of_exec op).inv sampled
  · exact inv_raiseIllegal sampled

end Sys2Proof.Machine
end

section
/-! The frames of the operations: which of them write the enables, QUALITY, the sync fields and the
sampled ports (10_state.md R22). -/

namespace Sys2Proof.Machine

/-- Settles O52: of the effects only those of START and STOP write an enable. -/
theorem onlyStartAndStopSwitchTheEnables : Obligations.OnlyStartAndStopSwitchTheEnables := by
  intro i s t h notStart notStop
  cases effect_of_exec h with
  | start => exact absurd rfl notStart
  | stop => exact absurd rfl notStop
  | _ => exact ⟨rfl, rfl⟩

/-- Every effect either keeps QUALITY or is one of its named writers. -/
theorem OpEffect.quality {i : Instr} {s t : State} (e : OpEffect s i t) :
    t.quality = s.quality ∨
    (t.quality = true ∧ i = .edge ∧ edgeTaken s) ∨
    (t.quality = false ∧
      ((i = .edge ∧ s.edgeEn = true ∧ ¬ edgeTaken s) ∨ (i = .hasSignal ∧ silentTooLong s = true) ∨
        i = .start ∨ i = .stop ∨ i = .restart)) := by
  cases e with
  | answer _ | illegal _ | wrslot _ => exact .inl rfl
  | sync taken _ _ _ | tick taken _ _ _ | fall taken _ _ _ | sameLevel taken _ =>
    exact .inr (.inl ⟨rfl, rfl, taken⟩)
  | reject en noise => exact .inr (.inr ⟨rfl, .inl ⟨rfl, en, noise⟩⟩)
  | silence h => exact .inr (.inr ⟨rfl, .inr (.inl ⟨rfl, h⟩)⟩)
  | start | stop | restart => exact .inr (.inr ⟨rfl, by simp⟩)

theorem silentTooLong_iff (s : State) :
    silentTooLong s = true ↔ 2500 < (s.now - s.tStartCur).toNat := decide_eq_true_iff

/-- Settles O53: a change of QUALITY excludes all but the writers of its direction. -/
theorem onlyTheNamedWritersChangeQuality : Obligations.OnlyTheNamedWritersChangeQuality := by
  intro i s t h
  have writers := (effect_of_exec h).quality
  rw [edgeTaken_iff, silentTooLong_iff] at writers
  obtain same | ⟨high, isEdge, taken⟩ | ⟨low, fallers⟩ := writers
  · exact ⟨fun was is => by simp [was, is] at same, fun was is => by simp [was, is] at same⟩
  · exact ⟨fun _ _ => ⟨isEdge, taken⟩, fun _ is => by simp [is] at high⟩
  · exact ⟨fun _ is => by simp [is] at low, fun _ _ => fallers⟩

/-- Settles O54: of the effects only a sync and the three clears write T_SYNC or T_EXPIRY. -/
theorem onlyASyncOrAClearWritesTheSyncFields :
    Obligations.OnlyASyncOrAClearWritesTheSyncFields := by
  intro i s t h
  cases effect_of_exec h with
  | sync taken lv ln long =>
    exact ⟨rfl, .inr (.inl ⟨rfl, (edgeTaken_iff s).1 taken, lv, ln, long, rfl, HEq.rfl, rfl⟩)⟩
  | start | stop | restart => exact ⟨rfl, .inr (.inr ⟨by simp, rfl, rfl⟩)⟩
  | _ => exact ⟨rfl, .inl ⟨HEq.rfl, HEq.rfl⟩⟩

/-- Settles O55: no effect writes an input port, the parameters or the inputs to come. -/
theorem operationsKeepTheSampledPorts : Obligations.OperationsKeepTheSampledPorts := by
  intro i s t h
  cases effect_of_exec h <;> exact ⟨rfl, rfl, rfl, HEq.rfl, rfl, HEq.rfl⟩

end Sys2Proof.Machine
end

section
/-! The command word as bytes (20_memory.md R53): a well-formed operation is read back from its own
word, and so from the two bytes of that word. -/

namespace Sys2Proof

/-- The two bytes of a word by value, the low one first. -/
theorem toNat_eq_of_wordBytes (w : Word) :
    w.toNat = 256 * (w.extractLsb' 8 8).toNat + (w.extractLsb' 0 8).toNat := by
  have := w.isLt
  simp only [BitVec.extractLsb'_toNat, Nat.shiftRight_eq_div_pow]
  omega

/-- Every operation that exists is read back from its own word (30_encoding.md R73, R75). -/
theorem decode_encode {htp : Bool} {i : Instr} (wf : i.wellFormed htp = true) :
    decode htp (encode i) = .ok i := by
  cases i with
  | rdslot idx =>
    obtain ⟨port, slot⟩ := Bool.and_eq_true_iff.1 wf
    simp [decode, encode, port, slot]
  | wrslot idx v =>
    obtain ⟨port, slot⟩ := Bool.and_eq_true_iff.1 wf
    cases v <;> simp [decode, encode, port, slot]
  | _ => rfl

/-- A word that decodes is read from its two bytes, whatever follows them. -/
theorem decodeBytes_wordBytes {htp : Bool} {w : Word} {i : Instr} (h : decode htp w = .ok i)
    (rest : List Byte) : decodeBytes htp (wordBytes w ++ rest) = .ok (i, rest) := by
  simp [decodeBytes, wordBytes, h]

/-- Settles O7: the word splits into its two bytes, and these give the word and its operation back. -/
theorem commandBytesGoLowByteFirst : Obligations.CommandBytesGoLowByteFirst := by
  intro htp i rest wf
  exact ⟨⟨_, _, rfl, toNat_eq_of_wordBytes (encode i)⟩, decodeBytes_wordBytes (decode_encode wf) rest⟩

end Sys2Proof
end

section
/-! The order of the inputs (20_memory.md R59): only the sampling takes an input off the list. -/

namespace Sys2Proof.Machine

theorem sampleInputs_takes_head {s : State} {x : Input s.cfg.tsWidth}
    {rest : List (Input s.cfg.tsWidth)} (h : s.pending = x :: rest) :
    (sampleInputs s).cfg = s.cfg ∧ HEq (sampleInputs s).pending rest := by
  cases x with
  | issue a cmd now line => rw [sampleInputs_issue h]; exact ⟨rfl, HEq.rfl⟩
  | idle now line => rw [sampleInputs_idle h]; exact ⟨rfl, HEq.rfl⟩
  | reset => rw [sampleInputs_reset h]; exact ⟨rfl, HEq.rfl⟩

/-- Settles O11: the sampling takes the head, and each of the three ways in which a step goes on keeps
the parameters and what is left of the list. -/
theorem stepTakesExactlyTheNextInput : Obligations.StepTakesExactlyTheNextInput := by
  intro s t x rest hp h
  obtain ⟨cfg, pending⟩ := sampleInputs_takes_head hp
  obtain ⟨-, rfl⟩ | ⟨-, i, -, op⟩ | ⟨-, _, -, rfl⟩ := step_cases h
  · exact ⟨cfg, pending⟩
  · obtain ⟨cfgKept, -, -, -, -, pendingKept⟩ := operationsKeepTheSampledPorts i _ t op
    exact ⟨cfgKept.trans cfg, pendingKept.trans pending⟩
  · exact ⟨cfg, pending⟩

end Sys2Proof.Machine
end

section
/-! The writers of the bit buffer (20_memory.md R51, R62): who changes a slot, and which of two writes to
one slot stays. -/

namespace Sys2Proof.Machine

theorem slotOperandLegal_of_le {s : State} {idx : BitVec 6} (port : s.cfg.hasTestPort = true)
    (le : idx.toNat ≤ 60) : slotOperandLegal idx s = true := by
  simp only [slotOperandLegal, slotExists, port, Bool.true_and, decide_eq_true_eq]
  exact Nat.lt_succ_of_le le

/-- Settles O33: both writes name the slot at CURSOR, and a slot reads as the bit last written to it. -/
theorem theLaterSlotWriteWins : Obligations.TheLaterSlotWriteWins := by
  intro s v accepted cursorOk lv ln port
  have taken : edgeTaken s := (edgeTaken_iff s).2 accepted
  have lt : s.cursor.toNat < bufLen := Nat.lt_succ_of_le cursorOk
  constructor
  · refine ⟨_, _, execEdge_falling taken lv ln lt, execWrslot_legal ?_ v, readSlot_writeSlot_same _ _ v⟩
    exact slotOperandLegal_of_le port cursorOk
  · refine ⟨_, _, execWrslot_legal (slotOperandLegal_of_le port cursorOk) v,
      execEdge_falling taken lv ln lt, ?_⟩
    exact (Bool.eq_iff_iff.1 (readSlot_writeSlot_same _ _ _)).trans (pulseIsLong_iff s)

/-- A write changes no slot but its own. -/
theorem eq_of_readSlot_writeSlot_ne {m : Memory} {i j : Nat} {b : Bool}
    (h : (m.writeSlot i b).readSlot j ≠ m.readSlot j) : j = i :=
  by_contra fun ne => h (readSlot_writeSlot_other m b ne)

/-- Settles O51: of the effects only a falling edge, a test port write and the three clears touch the
buffer. -/
theorem onlyTheNamedWritersChangeASlot : Obligations.OnlyTheNamedWritersChangeASlot := by
  intro i s t a h changed
  cases effect_of_exec h with
  | fall taken lv ln lt =>
    obtain rfl : a = s.cursor.toNat := eq_of_readSlot_writeSlot_ne changed
    exact .inl ⟨rfl, (edgeTaken_iff s).1 taken, lv, ln, rfl, Nat.le_of_lt_succ lt⟩
  | @wrslot idx v lt =>
    obtain rfl : a = idx.toNat := eq_of_readSlot_writeSlot_ne changed
    exact .inr (.inl ⟨idx, v, rfl, rfl, Nat.le_of_lt_succ lt⟩)
  | start | stop | restart => exact .inr (.inr ⟨by simp, readSlot_nil a⟩)
  | _ => exact absurd rfl changed

end Sys2Proof.Machine
end

section
/-! What the queries read and write (20_memory.md R51, R56; 41_queries.md R168): their answers depend on
their own slots only, and of them HAS_SIGNAL alone writes a state element. -/

namespace Sys2Proof.Machine

/-! ### Reads -/

theorem xorFold_congr {m m' : Memory} {i n : Nat}
    (h : ∀ k, i ≤ k → k < i + n → m.readSlot k = m'.readSlot k) :
    xorFold m i n = xorFold m' i n := by
  induction n generalizing i with
  | zero => rfl
  | succ n ih =>
    simp only [xorFold]
    rw [h i (by omega) (by omega), ih fun k lo hi => h k (by omega) (by omega)]

theorem weightedSum_congr {m m' : Memory} {i : Nat} {ks : List Int}
    (h : ∀ k, i ≤ k → k < i + ks.length → m.readSlot k = m'.readSlot k) :
    weightedSum m i ks = weightedSum m' i ks := by
  induction ks generalizing i with
  | nil => rfl
  | cons w ks ih =>
    simp only [List.length_cons] at h
    simp only [weightedSum]
    rw [h i (by omega) (by omega), ih fun k lo hi => h k (by omega) (by omega)]

/-- The validator reads the slots 0 and 20 to 35 only (41_queries.md R150). -/
theorem frameOk_congr {m m' : Memory}
    (h : ∀ k, k = 0 ∨ (20 ≤ k ∧ k ≤ 35) → m.readSlot k = m'.readSlot k) : frameOk m = frameOk m' := by
  have minuteParity : xorFold m 21 7 = xorFold m' 21 7 :=
    xorFold_congr fun k lo hi => h k (by omega)
  have hourParity : xorFold m 29 6 = xorFold m' 29 6 :=
    xorFold_congr fun k lo hi => h k (by omega)
  unfold frameOk
  rw [minuteParity, hourParity, h 0 (by omega), h 20 (by omega), h 28 (by omega), h 35 (by omega)]

/-- The renderer reads the slots 21 to 27 and 29 to 34 only (41_queries.md R160, R161). -/
theorem minuteOfDay_congr {m m' : Memory}
    (h : ∀ k, (21 ≤ k ∧ k ≤ 27) ∨ (29 ≤ k ∧ k ≤ 34) → m.readSlot k = m'.readSlot k) :
    minuteOfDay m = minuteOfDay m' := by
  have minute : minuteField m = minuteField m' :=
    weightedSum_congr fun k lo hi => h k (.inl ⟨lo, Nat.le_of_lt_succ hi⟩)
  have hour : hourField m = hourField m' :=
    weightedSum_congr fun k lo hi => h k (.inr ⟨lo, Nat.le_of_lt_succ hi⟩)
  simp only [minuteOfDay, minute, hour]

theorem frameValid_congr {s : State} {m : Memory} (h : frameOk m = frameOk s.buf) :
    frameValid { s with buf := m } = frameValid s := by
  simp only [frameValid, h]

/-- Each of the renderer's operations answers a function of `minute_of_day()` (41_queries.md R164 to
R166). -/
theorem exec_rendered {i : Instr} (hi : i ∈ [Instr.getMinute, .getHour, .getMinuteOfDay]) :
    ∃ f : Int → Word, ∀ s, exec i s = .next (respond (f (minuteOfDay s.buf)) s) := by
  simp only [List.mem_cons, List.not_mem_nil, or_false] at hi
  obtain rfl | rfl | rfl := hi
  · exact ⟨fun d => intResult ((d + 60) % 60), fun _ => rfl⟩
  · exact ⟨fun d => intResult (d / 60 % 24), fun _ => rfl⟩
  · exact ⟨intResult, fun _ => rfl⟩

/-- Settles O46: IS_VALID answers from `frameOk` of the buffer, the renderer from `minuteOfDay` of it
alone, and both read only the slots that the two buffers share. -/
theorem queriesReadOnlyTheirOwnSlots : Obligations.QueriesReadOnlyTheirOwnSlots := by
  intro s m
  constructor
  · intro same
    have valid : frameValid { s with buf := m } = frameValid s := frameValid_congr (frameOk_congr same)
    exact ⟨boolResult (frameValid s), rfl, by rw [← valid]; rfl⟩
  · intro same i hi ts tx q
    obtain ⟨f, answer⟩ := exec_rendered hi
    have rendered : minuteOfDay m = minuteOfDay s.buf := minuteOfDay_congr same
    exact ⟨f (minuteOfDay s.buf), answer s, by rw [answer, ← rendered]; rfl⟩

/-! ### Writes -/

theorem execHasSignal_silent {s : State} (h : silentTooLong s = true) :
    execHasSignal s = .next (respond 0 (setQuality false s)) := by
  simp [execHasSignal, h, boolResult]

theorem execHasSignal_heard {s : State} (h : silentTooLong s = false) :
    execHasSignal s = .next (respond (boolResult s.quality) s) := by
  simp [execHasSignal, h]

theorem execRdslot_legal {idx : BitVec 6} {s : State} (h : slotOperandLegal idx s = true) :
    execRdslot idx s = .next (respond (boolResult (s.slot idx.toNat)) s) := if_pos h

theorem execRdslot_illegal {idx : BitVec 6} {s : State} (h : slotOperandLegal idx s = false) :
    execRdslot idx s = .next (raiseIllegal s) := by
  simp [execRdslot, h]

/-- RDSLOT, legal or not, writes only its response, which it does not read. -/
theorem execRdslot_repeats (idx : BitVec 6) (s : State) :
    ∃ r e, execRdslot idx s = .next { s with result := r, err := e } ∧
      execRdslot idx { s with result := r, err := e } = .next { s with result := r, err := e } := by
  cases legal : slotOperandLegal idx s with
  | true => exact ⟨_, _, execRdslot_legal legal, execRdslot_legal legal⟩
  | false => exact ⟨_, _, execRdslot_illegal legal, execRdslot_illegal legal⟩

/-- HAS_SIGNAL writes QUALITY to 0 at most, and the silence it reads is still there the second time. -/
theorem execHasSignal_repeats (s : State) :
    ∃ r q, execHasSignal s = .next { s with quality := q, result := r, err := false } ∧
      (q = s.quality ∨ q = false) ∧
      execHasSignal { s with quality := q, result := r, err := false } =
        .next { s with quality := q, result := r, err := false } := by
  cases silent : silentTooLong s with
  | true => exact ⟨0, false, execHasSignal_silent silent, .inr rfl, execHasSignal_silent silent⟩
  | false =>
    exact ⟨boolResult s.quality, s.quality, execHasSignal_heard silent, .inl rfl,
      execHasSignal_heard silent⟩

/-- Settles O50: HAS_SIGNAL and RDSLOT by their two cases each; the other queries answer from fields that
a response does not write. -/
theorem queriesHaveNoSideEffectButHasSignal : Obligations.QueriesHaveNoSideEffectButHasSignal := by
  refine ⟨execHasSignal_repeats, fun i s query => ?_⟩
  obtain rfl | rfl | rfl | rfl | rfl | ⟨idx, rfl⟩ := query
  on_goal 6 => exact execRdslot_repeats idx s
  all_goals exact ⟨_, _, rfl, rfl⟩

end Sys2Proof.Machine
end

section
/-! The decoder and the encoder as inverses (30_encoding.md R70 to R75): where the decoder answers an
operation, the word is that operation's word. -/

namespace Sys2Proof

open Machine (plainInstrs)

/-- Settles O2, by the cases of `decode_encode` over the operations. -/
theorem decodeOfEncodeIsTheInstruction : Obligations.DecodeOfEncodeIsTheInstruction :=
  fun _ _ wf => decode_encode wf

/-! ### The operations without operands, by `OP` -/

theorem plainInstr_spec {n : Nat} (lt : n < 11) :
    ∃ i, plainInstrs[n]? = some i ∧ plainOp n = .ok i ∧ encode i = BitVec.ofNat 16 n ∧
      ∀ htp, i.wellFormed htp = true := by
  interval_cases n <;> exact ⟨_, rfl, rfl, rfl, fun _ => rfl⟩

theorem encode_plainInstr {n : Nat} {i : Instr} (h : plainInstrs[n]? = some i) :
    encode i = BitVec.ofNat 16 n ∧ ∀ htp, i.wellFormed htp = true := by
  have lt : n < 11 := (List.getElem?_eq_some_iff.1 h).1
  obtain ⟨j, hj, -, spec⟩ := plainInstr_spec lt
  obtain rfl : i = j := Option.some.inj (h.symm.trans hj)
  exact spec

/-! ### The decoder's answer -/

/-- An assembled word is known by its fields. -/
theorem assemble_eq_iff {op : BitVec 4} {v : BitVec 1} {idx : BitVec 6} {w : Word} :
    assemble op v idx = w ↔
      opField w = op ∧ vField w = v ∧ rsv0Field w = 0 ∧ idxField w = idx ∧ rsv1Field w = 0 := by
  constructor
  · rintro rfl
    exact fields_assemble op v idx
  · rintro ⟨rfl, rfl, rsv0, rfl, rsv1⟩
    exact assemble_fields rsv0 rsv1

/-- The word of an `OP` without operands is the number of the `OP` (30_encoding.md R74). -/
theorem assemble_plain (op : BitVec 4) : assemble op 0 0 = BitVec.ofNat 16 op.toNat := by
  decide +revert

/-- A word with such an `OP` and no other bit is the word of an operation without operands. -/
theorem plainInstr_of_fields {w : Word} (op : (opField w).toNat ≤ 10) (v : vField w = 0)
    (rsv0 : rsv0Field w = 0) (idx : idxField w = 0) (rsv1 : rsv1Field w = 0) :
    ∃ i, plainOp (opField w).toNat = .ok i ∧ encode i = w ∧ ∀ htp, i.wellFormed htp = true := by
  obtain ⟨i, -, answer, word, wf⟩ := plainInstr_spec (Nat.lt_succ_of_le op)
  refine ⟨i, answer, ?_, wf⟩
  rw [word, ← assemble_plain, assemble_eq_iff]
  exact ⟨rfl, v, rsv0, idx, rsv1⟩

theorem eq_ofBool_beq_one (v : BitVec 1) : v = BitVec.ofBool (v == 1) := by
  decide +revert

/-- The inversion of the decoder: the three of its nine branches that answer an operation. -/
theorem encode_wellFormed_of_decode {htp : Bool} {w : Word} {i : Instr} (h : decode htp w = .ok i) :
    encode i = w ∧ i.wellFormed htp = true := by
  unfold decode at h
  split_ifs at h with reserved plain operand testOp noPort noSlot isRd v
  · push Not at reserved operand
    obtain ⟨j, answer, word, wf⟩ :=
      plainInstr_of_fields plain operand.1 reserved.1 operand.2 reserved.2
    obtain rfl : i = j := Except.ok.inj (h.symm.trans answer)
    exact ⟨word, wf htp⟩
  · cases h
    push Not at reserved v
    refine ⟨assemble_eq_iff.2 ⟨isRd, v, reserved.1, rfl, reserved.2⟩, ?_⟩
    simpa [Instr.wellFormed] using And.intro noPort noSlot
  · cases h
    push Not at reserved
    have isWr : opField w = 12 := testOp.resolve_left isRd
    refine ⟨assemble_eq_iff.2 ⟨isWr, eq_ofBool_beq_one _, reserved.1, rfl, reserved.2⟩, ?_⟩
    simpa [Instr.wellFormed] using And.intro noPort noSlot

/-- Everything the decoder answers: the words of the operations that exist. -/
theorem decode_eq_ok_iff {htp : Bool} {w : Word} {i : Instr} :
    decode htp w = .ok i ↔ encode i = w ∧ i.wellFormed htp = true := by
  refine ⟨encode_wellFormed_of_decode, ?_⟩
  rintro ⟨rfl, wf⟩
  exact decode_encode wf

/-- Settles O3, by the inversion of the decoder. -/
theorem encodeOfDecodeIsTheWord : Obligations.EncodeOfDecodeIsTheWord :=
  fun _ _ _ => decode_eq_ok_iff.1

/-- Settles O1: each sample word is the word of its operation. -/
theorem opcodeMapWordsDecode : Obligations.OpcodeMapWordsDecode := by
  refine ⟨fun htp => ?_, decode_encode (i := .rdslot 60) rfl, decode_encode (i := .rdslot 20) rfl,
    decode_encode (i := .wrslot 20 true) rfl, decode_encode (i := .wrslot 28 false) rfl⟩
  exact ⟨decode_encode (i := .nop) rfl, decode_encode (i := .edge) rfl,
    decode_encode (i := .start) rfl, decode_encode (i := .stop) rfl,
    decode_encode (i := .restart) rfl, decode_encode (i := .hasSignal) rfl,
    decode_encode (i := .isValid) rfl, decode_encode (i := .getSecond) rfl,
    decode_encode (i := .getMinute) rfl, decode_encode (i := .getHour) rfl,
    decode_encode (i := .getMinuteOfDay) rfl⟩

end Sys2Proof
end

section
/-! The words by their bits: the match, mask and range of each operation (30_encoding.md R74) and the
illegal words (60_exceptions.md R210). -/

namespace Sys2Proof

open Machine (plainInstrs wordIsIllegal)

/-! ### The fields of a word by value -/

theorem opField_toNat (w : Word) : (opField w).toNat = w.toNat % 16 := by
  simp [opField]

theorem vField_toNat (w : Word) : (vField w).toNat = w.toNat / 16 % 2 := by
  simp [vField, Nat.shiftRight_eq_div_pow]

theorem rsv0Field_toNat (w : Word) : (rsv0Field w).toNat = w.toNat / 32 % 8 := by
  simp [rsv0Field, Nat.shiftRight_eq_div_pow]

theorem idxField_toNat (w : Word) : (idxField w).toNat = w.toNat / 256 % 64 := by
  simp [idxField, Nat.shiftRight_eq_div_pow]

theorem rsv1Field_toNat (w : Word) : (rsv1Field w).toNat = w.toNat / 16384 := by
  have := w.isLt
  simp only [rsv1Field, BitVec.extractLsb'_toNat, Nat.shiftRight_eq_div_pow]
  omega

/-! ### Match, mask and range -/

/-- A field of a masked word is the masked field. -/
theorem fields_and (w m : Word) :
    opField (w &&& m) = opField w &&& opField m ∧ vField (w &&& m) = vField w &&& vField m ∧
      rsv0Field (w &&& m) = rsv0Field w &&& rsv0Field m ∧
      idxField (w &&& m) = idxField w &&& idxField m ∧
      rsv1Field (w &&& m) = rsv1Field w &&& rsv1Field m := by
  simp [opField, vField, rsv0Field, idxField, rsv1Field, BitVec.extractLsb'_and]

theorem and_eq_assemble_iff {w m : Word} {op : BitVec 4} {v : BitVec 1} {idx : BitVec 6} :
    w &&& m = assemble op v idx ↔
      opField w &&& opField m = op ∧ vField w &&& vField m = v ∧ rsv0Field w &&& rsv0Field m = 0 ∧
        idxField w &&& idxField m = idx ∧ rsv1Field w &&& rsv1Field m = 0 := by
  obtain ⟨opEq, vEq, rsv0Eq, idxEq, rsv1Eq⟩ := fields_and w m
  rw [eq_comm, assemble_eq_iff, opEq, vEq, rsv0Eq, idxEq, rsv1Eq]

/-- The mask of RDSLOT covers every field but `IDX`. -/
theorem and_rdslotMask_eq_iff {w : Word} :
    w &&& 0xC0FF = 0x000B ↔ opField w = 0xB ∧ vField w = 0 ∧ rsv0Field w = 0 ∧ rsv1Field w = 0 := by
  refine (and_eq_assemble_iff (op := 0xB) (v := 0) (idx := 0)).trans ?_
  change opField w &&& .allOnes 4 = 0xB ∧ vField w &&& .allOnes 1 = 0 ∧
    rsv0Field w &&& .allOnes 3 = 0 ∧ idxField w &&& 0 = 0 ∧ rsv1Field w &&& .allOnes 2 = 0 ↔ _
  simp only [BitVec.and_allOnes]
  simp

/-- The mask of WRSLOT covers every field but `IDX` and `V`. -/
theorem and_wrslotMask_eq_iff {w : Word} :
    w &&& 0xC0EF = 0x000C ↔ opField w = 0xC ∧ rsv0Field w = 0 ∧ rsv1Field w = 0 := by
  refine (and_eq_assemble_iff (op := 0xC) (v := 0) (idx := 0)).trans ?_
  change opField w &&& .allOnes 4 = 0xC ∧ vField w &&& 0 = 0 ∧
    rsv0Field w &&& .allOnes 3 = 0 ∧ idxField w &&& 0 = 0 ∧ rsv1Field w &&& .allOnes 2 = 0 ↔ _
  simp only [BitVec.and_allOnes]
  simp

theorem slotExists_iff {idx : BitVec 6} : slotExists idx = true ↔ idx.toNat ≤ 60 :=
  decide_eq_true_iff.trans Nat.lt_succ_iff

theorem decode_eq_plain_iff {w : Word} {n : Nat} {i : Instr} (h : plainInstrs[n]? = some i) (htp : Bool) :
    decode htp w = .ok i ↔ w = BitVec.ofNat 16 n := by
  obtain ⟨word, wf⟩ := encode_plainInstr h
  rw [decode_eq_ok_iff, word, eq_comm]
  exact and_iff_left (wf htp)

theorem decode_eq_rdslot_iff {w : Word} {idx : BitVec 6} :
    decode true w = .ok (.rdslot idx) ↔
      w &&& 0xC0FF = 0x000B ∧ w.toNat / 256 % 64 = idx.toNat ∧ idx.toNat ≤ 60 := by
  rw [decode_eq_ok_iff, and_rdslotMask_eq_iff, ← idxField_toNat, BitVec.toNat_inj, ← slotExists_iff]
  simp only [encode, assemble_eq_iff, Instr.wellFormed, Bool.true_and]
  tauto

theorem decode_eq_wrslot_iff {w : Word} {idx : BitVec 6} {v : Bool} :
    decode true w = .ok (.wrslot idx v) ↔
      w &&& 0xC0EF = 0x000C ∧ w.toNat / 256 % 64 = idx.toNat ∧ idx.toNat ≤ 60 ∧
        w.toNat / 16 % 2 = v.toNat := by
  rw [decode_eq_ok_iff, and_wrslotMask_eq_iff, ← idxField_toNat, ← vField_toNat, ← BitVec.toNat_ofBool,
    BitVec.toNat_inj, BitVec.toNat_inj, ← slotExists_iff]
  simp only [encode, assemble_eq_iff, Instr.wellFormed, Bool.true_and]
  tauto

/-- Settles O4: a word decodes to an operation where its fields are that operation's, and the masks keep
just the fields that are no operand. -/
theorem eachWordMatchesItsMaskAndRange : Obligations.EachWordMatchesItsMaskAndRange := by
  refine fun w => ⟨fun n i h => ?_, fun _ => decode_eq_rdslot_iff, fun _ _ => decode_eq_wrslot_iff⟩
  have full : w &&& 0xFFFF = w := BitVec.and_allOnes
  rw [full]
  exact decode_eq_plain_iff h true

/-! ### The illegal words -/

/-- The table of 60_exceptions.md R210 by the fields of the word. -/
theorem wordIsIllegal_iff {htp : Bool} {w : Word} :
    wordIsIllegal htp w ↔
      13 ≤ (opField w).toNat ∨ rsv0Field w ≠ 0 ∨ rsv1Field w ≠ 0 ∨
      ((opField w).toNat ≤ 10 ∧ (vField w ≠ 0 ∨ idxField w ≠ 0)) ∨
      ((opField w).toNat = 11 ∧ vField w ≠ 0) ∨
      (((opField w).toNat = 11 ∨ (opField w).toNat = 12) ∧
        (slotExists (idxField w) = false ∨ htp = false)) := by
  simp [wordIsIllegal, slotExists, Machine.bufLen, ← BitVec.toNat_inj, opField_toNat, vField_toNat,
    rsv0Field_toNat, idxField_toNat, rsv1Field_toNat]

/-- The word of an operation that exists is none of the table. -/
theorem not_wordIsIllegal_encode {htp : Bool} {i : Instr} (wf : i.wellFormed htp = true) :
    ¬ wordIsIllegal htp (encode i) := by
  rw [wordIsIllegal_iff]
  cases i with
  | rdslot idx | wrslot idx v =>
    obtain ⟨port, slot⟩ := Bool.and_eq_true_iff.1 wf
    simp [encode, port, slot]
  | _ => simp [encode]

/-- A word that is none of the table is the word of an operation, found by its `OP`. -/
theorem exists_encode_eq_of_legal {htp : Bool} {w : Word} (h : ¬ wordIsIllegal htp w) :
    ∃ i, encode i = w ∧ i.wellFormed htp = true := by
  rw [wordIsIllegal_iff] at h
  push Not at h
  obtain ⟨op, rsv0, rsv1, plain, rd, test⟩ := h
  obtain le | is11 | is12 : (opField w).toNat ≤ 10 ∨ (opField w).toNat = 11 ∨ (opField w).toNat = 12 := by
    omega
  · obtain ⟨v, idx⟩ := plain le
    obtain ⟨i, -, word, wf⟩ := plainInstr_of_fields le v rsv0 idx rsv1
    exact ⟨i, word, wf htp⟩
  · have word : encode (.rdslot (idxField w)) = w :=
      assemble_eq_iff.2 ⟨BitVec.eq_of_toNat_eq is11, rd is11, rsv0, rfl, rsv1⟩
    exact ⟨_, word, by simpa [Instr.wellFormed, and_comm] using test (.inl is11)⟩
  · have word : encode (.wrslot (idxField w) (vField w == 1)) = w :=
      assemble_eq_iff.2 ⟨BitVec.eq_of_toNat_eq is12, eq_ofBool_beq_one _, rsv0, rfl, rsv1⟩
    exact ⟨_, word, by simpa [Instr.wellFormed, and_comm] using test (.inr is12)⟩

/-- The decoder answers an operation exactly for the words outside the table. -/
theorem exists_decode_eq_ok_iff {htp : Bool} {w : Word} :
    (∃ i, decode htp w = .ok i) ↔ ¬ wordIsIllegal htp w := by
  simp only [decode_eq_ok_iff]
  refine ⟨?_, exists_encode_eq_of_legal⟩
  rintro ⟨i, rfl, wf⟩
  exact not_wordIsIllegal_encode wf

/-- Settles O5: the decoder refuses where it answers no operation. -/
theorem decoderRefusesExactlyTheIllegalWords : Obligations.DecoderRefusesExactlyTheIllegalWords := by
  intro htp w
  rw [← not_iff_not, ← exists_decode_eq_ok_iff]
  cases decode htp w <;> simp

end Sys2Proof
end

section
/-! The number of legal words (30_encoding.md R76): the operations that exist as a list, and the list of
their words. -/

namespace Sys2Proof

open Machine (plainInstrs)

/-- The slots 0 to 60 as operands (20_memory.md R50). -/
def slotOperands : List (BitVec 6) := (List.range 61).map (BitVec.ofNat 6)

/-- Every RDSLOT that exists. -/
def rdslotInstrs : List Instr := slotOperands.map .rdslot

/-- Every WRSLOT that exists. -/
def wrslotInstrs : List Instr := (slotOperands ×ˢ [false, true]).map fun p => .wrslot p.1 p.2

theorem mem_slotOperands {idx : BitVec 6} : idx ∈ slotOperands ↔ slotExists idx = true := by
  simp only [slotOperands, List.mem_map, List.mem_range, slotExists_iff]
  constructor
  · rintro ⟨n, lt, rfl⟩
    simp only [BitVec.toNat_ofNat]
    omega
  · exact fun le => ⟨idx.toNat, Nat.lt_succ_of_le le, by simp⟩

theorem nodup_slotOperands : slotOperands.Nodup := by
  refine List.Nodup.map_on (fun m hm n hn h => ?_) List.nodup_range
  have h := congrArg BitVec.toNat h
  simp only [List.mem_range, BitVec.toNat_ofNat] at hm hn h
  omega

theorem mem_plainInstrs {i : Instr} : i ∈ plainInstrs ↔ i.wellFormed false = true := by
  cases i <;> simp [plainInstrs, Instr.wellFormed]

theorem wellFormed_of_mem_plainInstrs {i : Instr} (h : i ∈ plainInstrs) : i.wellFormed true = true := by
  obtain ⟨n, hn⟩ := List.mem_iff_getElem?.1 h
  exact (encode_plainInstr hn).2 true

theorem mem_rdslotInstrs {i : Instr} :
    i ∈ rdslotInstrs ↔ (∃ idx, i = .rdslot idx) ∧ i.wellFormed true = true := by
  cases i <;> simp [rdslotInstrs, mem_slotOperands, Instr.wellFormed]

theorem mem_wrslotInstrs {i : Instr} :
    i ∈ wrslotInstrs ↔ (∃ idx v, i = .wrslot idx v) ∧ i.wellFormed true = true := by
  cases i <;> simp [wrslotInstrs, mem_slotOperands, Instr.wellFormed]

theorem nodup_rdslotInstrs : rdslotInstrs.Nodup :=
  nodup_slotOperands.map fun _ _ => Instr.rdslot.inj

theorem nodup_wrslotInstrs : wrslotInstrs.Nodup := by
  have operands : (slotOperands ×ˢ [false, true]).Nodup := nodup_slotOperands.product (by decide)
  exact operands.map fun p q h => by simpa [Prod.ext_iff] using h

/-- Every operation that exists in a block with a test port, once. -/
def existingInstrs : List Instr := plainInstrs ++ rdslotInstrs ++ wrslotInstrs

theorem mem_existingInstrs {i : Instr} : i ∈ existingInstrs ↔ i.wellFormed true = true := by
  simp only [existingInstrs, List.mem_append, mem_plainInstrs, mem_rdslotInstrs, mem_wrslotInstrs]
  cases i <;> simp [Instr.wellFormed]

theorem nodup_existingInstrs : existingInstrs.Nodup := by
  have plain : plainInstrs.Nodup := by decide
  refine (plain.append nodup_rdslotInstrs fun i isPlain isRd => ?_).append nodup_wrslotInstrs
    fun i isOther isWr => ?_
  · obtain ⟨⟨idx, rfl⟩, -⟩ := mem_rdslotInstrs.1 isRd
    simp [plainInstrs] at isPlain
  · obtain ⟨⟨idx, v, rfl⟩, -⟩ := mem_wrslotInstrs.1 isWr
    simp [plainInstrs, rdslotInstrs] at isOther

theorem encode_injOn_wellFormed {htp : Bool} {i j : Instr} (wi : i.wellFormed htp = true)
    (wj : j.wellFormed htp = true) (h : encode i = encode j) : i = j := by
  have answer : decode htp (encode i) = .ok j := h ▸ decode_encode wj
  exact Except.ok.inj ((decode_encode wi).symm.trans answer)

/-- A list of exactly the existing operations with `P` has as its words those that decode to one with
`P`. -/
theorem mem_map_encode_iff {htp : Bool} {P : Instr → Prop} {is : List Instr}
    (h : ∀ i, i ∈ is ↔ P i ∧ i.wellFormed htp = true) (w : Word) :
    w ∈ is.map encode ↔ ∃ i, P i ∧ decode htp w = .ok i := by
  simp only [List.mem_map, h, decode_eq_ok_iff]
  exact exists_congr fun i => by tauto

/-- A list of exactly the existing operations has as its words the legal ones. -/
theorem mem_map_encode_iff_decodes {htp : Bool} {is : List Instr}
    (h : ∀ i, i ∈ is ↔ i.wellFormed htp = true) (w : Word) :
    w ∈ is.map encode ↔ ∃ i, decode htp w = .ok i := by
  simpa using mem_map_encode_iff (P := fun _ => True) (fun i => by simpa using h i) w

/-- Settles O6: the legal words are the words of the existing operations, and these words differ. -/
theorem legalWordCounts : Obligations.LegalWordCounts := by
  refine ⟨plainInstrs.map encode, rdslotInstrs.map encode, wrslotInstrs.map encode,
    rfl, rfl, rfl, rfl, ?_, ?_, ?_, ?_, ?_, ?_⟩
  · rw [← List.map_append, ← List.map_append]
    exact nodup_existingInstrs.map_on fun i hi j hj =>
      encode_injOn_wellFormed (mem_existingInstrs.1 hi) (mem_existingInstrs.1 hj)
  · exact mem_map_encode_iff fun i => ⟨fun h => ⟨h, wellFormed_of_mem_plainInstrs h⟩, And.left⟩
  · intro w
    simpa using mem_map_encode_iff (fun i => mem_rdslotInstrs) w
  · intro w
    simpa using mem_map_encode_iff (fun i => mem_wrslotInstrs) w
  · rw [← List.map_append, ← List.map_append]
    exact mem_map_encode_iff_decodes fun _ => mem_existingInstrs
  · exact mem_map_encode_iff_decodes fun _ => mem_plainInstrs

end Sys2Proof
end

section
/-! The completion of the legal words (30_encoding.md R72, 60_exceptions.md R212). -/

namespace Sys2Proof.Machine

/-- An EDGE in its range completes: only a falling edge writes a slot, and CURSOR names one. -/
theorem execEdge_completes {s : State} (c : s.cursorOk) : ∃ t, execEdge s = .next t := by
  cases en : s.edgeEn with
  | false => exact ⟨_, execEdge_gated en⟩
  | true =>
    by_cases noise : noiseRule1 s = true ∨ noiseRule2 s = true
    · exact ⟨_, execEdge_rejected en noise⟩
    · have taken : edgeTaken s := ⟨en, by simpa using not_or.1 noise⟩
      cases lv : s.lvlPrev <;> cases ln : s.line
      · exact ⟨_, execEdge_sameLevel taken (ln.trans lv.symm)⟩
      · exact ⟨_, execEdge_rising taken lv ln⟩
      · exact ⟨_, execEdge_falling taken lv ln (Nat.lt_succ_of_le c)⟩
      · exact ⟨_, execEdge_sameLevel taken (ln.trans lv.symm)⟩

theorem exec_completes {s : State} (c : s.cursorOk) (i : Instr) : ∃ t, exec i s = .next t := by
  cases i with
  | edge => exact execEdge_completes c
  | rdslot idx =>
    obtain ⟨r, e, h⟩ := execRdslot_next idx s
    exact ⟨_, h⟩
  | wrslot idx v =>
    cases legal : slotOperandLegal idx s with
    | true => exact ⟨_, execWrslot_legal legal v⟩
    | false => exact ⟨_, execWrslot_illegal legal v⟩
  | _ => exact ⟨_, rfl⟩

/-- Only the answer to an operand that the block does not have is an error. -/
theorem OpEffect.err_eq_false {i : Instr} {s t : State} (e : OpEffect s i t)
    (wf : i.wellFormed s.cfg.hasTestPort = true) : t.err = false := by
  cases e with
  | illegal ill => simp [ill] at wf
  | _ => rfl

/-- A step on an issued word performs the operation that the word decodes to (60_exceptions.md R210). -/
theorem step_of_issue {s : State} {a : Agent} {c : Word} {n : Timestamp s.cfg.tsWidth} {l : Bool}
    {rest : List (Input s.cfg.tsWidth)} {i : Instr} (h : s.pending = .issue a c n l :: rest)
    (d : decode s.cfg.hasTestPort c = .ok i) :
    step s = exec i { s with cmdValid := true, cmd := c, now := n, line := l, pending := rest } := by
  simp only [step, sampleInputs_issue h, if_true, perform, d]

/-- Settles O10: a legal word decodes to an operation that exists, the operation completes, and none of its
effects is an error. -/
theorem legalWordCompletesWithoutErr : Obligations.LegalWordCompletesWithoutErr := by
  intro s a c n l rest h legal cursorOk
  obtain ⟨i, word⟩ := exists_decode_eq_ok_iff.2 legal
  have wf := (decode_eq_ok_iff.1 word).2
  rw [step_of_issue h word]
  obtain ⟨t, done⟩ := exec_completes (s := { s with
    cmdValid := true, cmd := c, now := n, line := l, pending := rest }) cursorOk i
  exact ⟨t, done, (effect_of_exec done).err_eq_false wf⟩

end Sys2Proof.Machine
end

section
/-! The edge classifier case by case (40_edge_classifier.md R101 to R113): what an EDGE does at the gate,
at either noise rule, and after acceptance by the level before and the level now. -/

namespace Sys2Proof.Machine

/-- What ends every accepted edge, by the level of the line (40_edge_classifier.md R111). -/
theorem finishEdge_of_line {u : State} {l : Bool} (ln : u.line = l) :
    finishEdge u = { u with lvlPrev := l, result := 0, err := false } := by
  subst ln
  rfl

/-- A rising edge after a long gap, measured before the shift (40_edge_classifier.md R106). -/
theorem execEdge_sync {s : State} (taken : edgeTaken s) (lv : s.lvlPrev = false) (ln : s.line = true)
    (long : syncMs < sinceStartCur s) :
    execEdge s = .next (finishEdge (minuteSync (shiftPulseStart (setQuality true s)))) := by
  have long' : syncMs < sinceStartCur (setQuality true s) := long
  rw [execEdge_rising taken lv ln, risingEdge_eq, if_pos long']

/-- A rising edge after a short gap, measured before the shift (40_edge_classifier.md R107). -/
theorem execEdge_tick {s : State} (taken : edgeTaken s) (lv : s.lvlPrev = false) (ln : s.line = true)
    (short : ¬ syncMs < sinceStartCur s) :
    execEdge s = .next (finishEdge (secondTick (shiftPulseStart (setQuality true s)))) := by
  have short' : ¬ syncMs < sinceStartCur (setQuality true s) := short
  rw [execEdge_rising taken lv ln, risingEdge_eq, if_neg short']

/-- An edge that keeps the level writes QUALITY and the response alone, whether or not a noise rule
rejects it (40_edge_classifier.md R101, R102, R110). -/
theorem execEdge_keepsLevel {s : State} (en : s.edgeEn = true) (lv : s.line = s.lvlPrev) :
    ∃ q, execEdge s = .next { s with quality := q, result := 0, err := false } := by
  by_cases noise : noiseRule1 s = true ∨ noiseRule2 s = true
  · exact ⟨false, execEdge_rejected en noise⟩
  · have taken : edgeTaken s := ⟨en, by simpa using not_or.1 noise⟩
    exact ⟨true, (execEdge_sameLevel taken lv).trans (congrArg _ (finishEdge_of_line lv))⟩

/-- Settles O26: the falling edge writes the slot at CURSOR, which exists, and a slot reads as the bit last
written to it. -/
theorem fallingEdgeStoresThePulseClass : Obligations.FallingEdgeStoresThePulseClass := by
  intro s accepted cursorOk lv ln
  have taken : edgeTaken s := (edgeTaken_iff s).2 accepted
  refine ⟨s.buf.writeSlot s.cursor.toNat (pulseIsLong s), ?_, ?_, fun a ne => ?_⟩
  · exact (execEdge_falling taken lv ln (Nat.lt_succ_of_le cursorOk)).trans
      (congrArg _ (finishEdge_of_line ln))
  · rw [readSlot_writeSlot_same, pulseIsLong_iff]
  · exact readSlot_writeSlot_other _ _ ne

/-- Settles O24: a gap above 1500 makes the rising edge a sync. -/
theorem risingEdgeAfterALongGapSyncs : Obligations.RisingEdgeAfterALongGapSyncs := by
  intro s accepted lv ln long
  have taken : edgeTaken s := (edgeTaken_iff s).2 accepted
  exact (execEdge_sync taken lv ln long).trans (congrArg _ (finishEdge_of_line ln))

/-- Settles O30: without a wrap the gap from either pulse start is a difference of times, above 1500, so
that both noise rules pass and the edge syncs. -/
theorem onAForwardClockALongGapAlwaysSyncs : Obligations.OnAForwardClockALongGapAlwaysSyncs := by
  intro s en lv ln ordered past long
  have gapPrev := BitVec.toNat_sub_of_le (BitVec.le_trans ordered past)
  have gapCur := BitVec.toNat_sub_of_le past
  have ordered' : s.tStartPrev.toNat ≤ s.tStartCur.toNat := ordered
  have accepted : s.edgeAccepted := ⟨en, by omega, by omega⟩
  exact risingEdgeAfterALongGapSyncs s accepted lv ln (by omega)

/-- Settles O32: the rejected rise leaves LVL_PREV low, so the fall keeps the level. -/
theorem afterARejectedRiseTheFallWritesNoSlot : Obligations.AfterARejectedRiseTheFallWritesNoSlot := by
  intro s t n en lv noise h
  rw [← noiseRule1_iff, ← noiseRule2_iff] at noise
  obtain rfl : rejectEdge s = t := Host.Outcome.next.inj ((execEdge_rejected en noise).symm.trans h)
  obtain ⟨q, fall⟩ := execEdge_keepsLevel (s := { rejectEdge s with now := n, line := false }) en lv.symm
  exact ⟨q, fall, rfl, rfl⟩

/-- Settles O21: the gate answers. -/
theorem edgeIsDroppedWhileNotEnabled : Obligations.EdgeIsDroppedWhileNotEnabled :=
  fun _ => execEdge_gated

/-- Settles O22: rule 1 rejects. -/
theorem noiseRuleOneRejectsTheEdge : Obligations.NoiseRuleOneRejectsTheEdge :=
  fun s en near => execEdge_rejected en (.inl ((noiseRule1_iff s).2 near))

/-- Settles O23: rule 2 rejects; that rule 1 did not is not needed, since both reject alike. -/
theorem noiseRuleTwoRejectsTheEdge : Obligations.NoiseRuleTwoRejectsTheEdge :=
  fun s en _ near => execEdge_rejected en (.inr ((noiseRule2_iff s).2 near))

/-- Settles O25: a gap of at most 1500 makes the rising edge a tick. -/
theorem risingEdgeAfterAShortGapTicks : Obligations.RisingEdgeAfterAShortGapTicks := by
  intro s accepted lv ln short
  have taken : edgeTaken s := (edgeTaken_iff s).2 accepted
  exact (execEdge_tick taken lv ln (not_lt.2 short)).trans (congrArg _ (finishEdge_of_line ln))

/-- Settles O27: at the same level the classification writes nothing, and the acceptance writes QUALITY. -/
theorem sameLevelEdgeOnlySetsQuality : Obligations.SameLevelEdgeOnlySetsQuality :=
  fun s accepted lv => execEdge_sameLevel ((edgeTaken_iff s).2 accepted) lv

end Sys2Proof.Machine
end

section
/-! The validator by the rules it is written from (41_queries.md R145 to R154): the four conditions of
IS_VALID, the two parities as even numbers of ones, and what one written slot does to them. -/

namespace Sys2Proof.Machine

/-! ### The four conditions -/

theorem frameOk_iff_frameGood (s : State) : frameOk s.buf = true ↔ frameGood s := by
  simp [frameOk, frameGood, xorFold, State.slot, and_assoc]

theorem frameValid_iff (s : State) :
    frameValid s = true ↔
      s.tSync ≠ 0 ∧ s.now.toNat < s.tExpiry.toNat ∧ 35 ≤ s.cursor.toNat ∧ frameGood s := by
  simp only [frameValid, Bool.and_eq_true, decide_eq_true_eq, frameOk_iff_frameGood, BitVec.lt_def,
    and_assoc]

theorem frameOk_of_frameValid {s : State} (h : frameValid s = true) : frameOk s.buf = true :=
  (frameOk_iff_frameGood s).2 ((frameValid_iff s).1 h).2.2.2

theorem result_isValid_eq_one_iff {s t : State} (h : exec .isValid s = .next t) :
    t.result = 1 ↔ frameValid s = true := by
  obtain rfl := Host.Outcome.next.inj h
  exact boolResult_eq_one

/-- Settles O36: IS_VALID answers `frameValid` as a bit. -/
theorem isValidAnswersTheFourConditions : Obligations.IsValidAnswersTheFourConditions := by
  refine ⟨fun htp => decode_encode (i := .isValid) rfl, fun s => ?_⟩
  refine ⟨boolResult (frameValid s), rfl, ?_, boolResult_eq_one.trans (frameValid_iff s)⟩
  cases frameValid s with
  | false => exact .inl rfl
  | true => exact .inr rfl

/-- Settles O39: without a wrap the expiry is the number 300000 after the sync. -/
theorem freshnessLastsThreeHundredThousandMs : Obligations.FreshnessLastsThreeHundredThousandMs := by
  intro s _ synced cursor good expiry noWrap past
  have window : (BitVec.ofNat s.cfg.tsWidth 300000).toNat = 300000 :=
    (BitVec.toNat_ofNat _ _).trans (Nat.mod_eq_of_lt (by omega))
  have expiryNum : s.tExpiry.toNat = s.tSync.toNat + 300000 := by
    rw [expiry, BitVec.toNat_add_of_lt (by omega), window]
  have past' : s.tSync.toNat ≤ s.now.toNat := past
  refine ⟨boolResult (frameValid s), rfl, ?_⟩
  rw [boolResult_eq_one, frameValid_iff]
  constructor
  · rintro ⟨-, fresh, -, -⟩
    omega
  · intro fresh
    exact ⟨synced, by omega, cursor, good⟩

/-! ### Parity -/

/-- The last slot of a run splits off its xor-fold, as the first does by definition. -/
theorem xorFold_succ_last (m : Memory) (i n : Nat) :
    xorFold m i (n + 1) = xor (xorFold m i n) (m.readSlot (i + n)) := by
  induction n generalizing i with
  | zero => simp [xorFold]
  | succ n ih =>
    calc xorFold m i (n + 1 + 1)
      _ = xor (m.readSlot i) (xorFold m (i + 1) (n + 1)) := rfl
      _ = xor (m.readSlot i) (xor (xorFold m (i + 1) n) (m.readSlot (i + (n + 1)))) := by
        rw [ih, Nat.add_right_comm i 1 n, Nat.add_assoc i n 1]
      _ = xor (xorFold m i (n + 1)) (m.readSlot (i + (n + 1))) := (Bool.xor_assoc _ _ _).symm

/-- A field agrees with the parity slot after it exactly when the xor-fold over both is 0
(41_queries.md R153, R154). -/
theorem xorFold_eq_parity_iff (m : Memory) (i n : Nat) :
    xorFold m i n = m.readSlot (i + n) ↔ xorFold m i (n + 1) = false := by
  rw [xorFold_succ_last, bne_eq_false_iff_eq]

theorem frameOk_iff_parities (m : Memory) :
    frameOk m = true ↔
      m.readSlot 0 = false ∧ m.readSlot 20 = true ∧ xorFold m 21 8 = false ∧ xorFold m 29 7 = false := by
  simp only [frameOk, Bool.and_eq_true, beq_iff_eq, and_assoc]
  rw [xorFold_eq_parity_iff m 21 7, xorFold_eq_parity_iff m 29 6]

/-- The xor-fold of a run is 0 exactly when the run holds an even number of ones. -/
theorem xorFold_eq_false_iff (m : Memory) (i n : Nat) :
    xorFold m i n = false ↔ (List.range' i n).countP (fun k => m.readSlot k) % 2 = 0 := by
  induction n generalizing i with
  | zero => simp [xorFold]
  | succ n ih =>
    simp only [xorFold, List.range'_succ, List.countP_cons]
    cases m.readSlot i with
    | false => simpa using ih (i + 1)
    | true =>
      simp only [Bool.true_bne, Bool.not_eq_false', if_true]
      rw [← Bool.not_eq_false, ih]
      omega

/-- Settles O37: each field of a valid frame has the xor-fold 0 together with its parity slot. -/
theorem validFrameHasEvenParityFields : Obligations.ValidFrameHasEvenParityFields := by
  intro s t h one
  have valid : frameValid s = true := (result_isValid_eq_one_iff h).1 one
  obtain ⟨-, -, minute, hour⟩ := (frameOk_iff_parities s.buf).1 (frameOk_of_frameValid valid)
  exact ⟨(xorFold_eq_false_iff s.buf 21 8).1 minute, (xorFold_eq_false_iff s.buf 29 7).1 hour⟩

/-! ### One written slot -/

/-- Flipping one slot of a run flips its xor-fold. -/
theorem xorFold_flip {m : Memory} {k i n : Nat} (lo : i ≤ k) (hi : k < i + n) :
    xorFold (m.writeSlot k (!m.readSlot k)) i n = !xorFold m i n := by
  induction n generalizing i with
  | zero => omega
  | succ n ih =>
    simp only [xorFold]
    obtain rfl | ne := eq_or_ne i k
    · have rest : xorFold (m.writeSlot i (!m.readSlot i)) (i + 1) n = xorFold m (i + 1) n :=
        xorFold_congr fun j lo' _ => readSlot_writeSlot_other m _ (by omega)
      rw [readSlot_writeSlot_same, rest, Bool.not_xor]
    · rw [readSlot_writeSlot_other m _ ne, ih (by omega) (by omega), Bool.xor_not]

/-- A flip of one slot that the validator reads, in a frame that it accepts: a marker is wrong, or a field
has an odd number of ones. -/
theorem frameOk_flip_checked {m : Memory} {k : Nat} (good : frameOk m = true)
    (checked : k = 0 ∨ (20 ≤ k ∧ k ≤ 35)) :
    frameOk (m.writeSlot k (!m.readSlot k)) = false := by
  obtain ⟨start, marker, minute, hour⟩ := (frameOk_iff_parities m).1 good
  rw [← Bool.not_eq_true, frameOk_iff_parities]
  rintro ⟨start', marker', minute', hour'⟩
  have place : k = 0 ∨ k = 20 ∨ (21 ≤ k ∧ k < 21 + 8) ∨ (29 ≤ k ∧ k < 29 + 7) := by omega
  obtain rfl | rfl | ⟨lo, hi⟩ | ⟨lo, hi⟩ := place
  · simp [start] at start'
  · simp [marker] at marker'
  · simp [xorFold_flip lo hi, minute] at minute'
  · simp [xorFold_flip lo hi, hour] at hour'

theorem frameOk_writeSlot_unchecked (m : Memory) {k : Nat} (b : Bool)
    (unchecked : (1 ≤ k ∧ k ≤ 19) ∨ 36 ≤ k) : frameOk (m.writeSlot k b) = frameOk m :=
  frameOk_congr fun _ checked => readSlot_writeSlot_other m b (by omega)

theorem frameValid_eq_false_of_frameOk {s : State} (h : frameOk s.buf = false) :
    frameValid s = false := by
  simp only [frameValid, h, Bool.and_false]

/-- Settles O38: a flip of a checked slot breaks a marker or a parity, and the validator does not read any
other slot. -/
theorem anySingleFlipOfACheckedSlotInvalidates :
    Obligations.AnySingleFlipOfACheckedSlotInvalidates := by
  intro s t k port le h one
  have valid : frameValid s = true := (result_isValid_eq_one_iff h).1 one
  have legal : slotOperandLegal k s = true := slotOperandLegal_of_le port le
  constructor
  · intro checked
    refine ⟨_, _, execWrslot_legal legal _, rfl, boolResult_eq_zero.2 ?_⟩
    exact frameValid_eq_false_of_frameOk (frameOk_flip_checked (frameOk_of_frameValid valid) checked)
  · intro unchecked b
    refine ⟨_, _, execWrslot_legal legal b, rfl, boolResult_eq_one.2 ?_⟩
    exact (frameValid_congr (frameOk_writeSlot_unchecked s.buf b unchecked)).trans valid

end Sys2Proof.Machine
end

section
/-! The accessors by the rules they are written from (41_queries.md R140, R160 to R167): HAS_SIGNAL, the
cursor, and the renderer on the weighted slots. -/

namespace Sys2Proof.Machine

/-- Settles O34, by the two answers of HAS_SIGNAL. -/
theorem hasSignalClearsQualityAfterSilence : Obligations.HasSignalClearsQualityAfterSilence := by
  refine ⟨fun htp => decode_encode (i := .hasSignal) rfl, fun s => ⟨fun silent => ?_, fun heard => ?_⟩⟩
  · exact execHasSignal_silent ((silentTooLong_iff s).2 silent)
  · have heard' : silentTooLong s = false := decide_eq_false (not_lt.2 heard)
    exact execHasSignal_heard heard'

/-- Settles O41: the six bits of CURSOR fit a word. -/
theorem getSecondReturnsTheCursor : Obligations.GetSecondReturnsTheCursor := by
  refine ⟨fun htp => decode_encode (i := .getSecond) rfl, fun s => ⟨s.cursor.setWidth 16, rfl, ?_⟩⟩
  exact BitVec.toNat_setWidth_of_le (by decide)

/-! ### The renderer -/

theorem minuteField_eq_num (s : State) : minuteField s.buf = minuteFieldNum s := by
  simp only [minuteField, weightedSum, minuteFieldNum, slotNum, State.slot]
  ring

theorem hourField_eq_num (s : State) : hourField s.buf = hourFieldNum s := by
  simp only [hourField, weightedSum, hourFieldNum, slotNum, State.slot]
  ring

theorem minuteOfDay_eq_num (s : State) : minuteOfDay s.buf = minuteOfDayNum s := by
  simp only [minuteOfDay, minuteOfDayNum, hourField_eq_num, minuteField_eq_num, Int.reduceMul,
    Int.reduceAdd]

/-- The range of `minute_of_day()` over every state (41_queries.md R164). -/
theorem minuteOfDayNum_mem_Icc (s : State) : minuteOfDayNum s ∈ Set.Icc 0 2784 :=
  minuteOfDay_eq_num s ▸ minuteOfDay_mem_Icc s.buf

/-- Settles O42: the minute of day fits a word. -/
theorem getMinuteOfDayRendersTheFields : Obligations.GetMinuteOfDayRendersTheFields := by
  refine ⟨fun htp => decode_encode (i := .getMinuteOfDay) rfl, fun s => ?_⟩
  obtain ⟨lo, hi⟩ := minuteOfDayNum_mem_Icc s
  have answer := intResult_toNat (n := minuteOfDayNum s) lo (by omega)
  exact ⟨_, minuteOfDay_eq_num s ▸ rfl, answer, by omega⟩

/-- Settles O43: the hour fits a word. -/
theorem getHourDividesTheMinuteOfDay : Obligations.GetHourDividesTheMinuteOfDay := by
  refine ⟨fun htp => decode_encode (i := .getHour) rfl, fun s => ?_⟩
  have answer := intResult_toNat (n := minuteOfDayNum s / 60 % 24) (by omega) (by omega)
  exact ⟨_, minuteOfDay_eq_num s ▸ rfl, answer, by omega⟩

/-- Settles O44: the minute fits a word, and the 60 added does not show modulo 60. -/
theorem getMinuteIsTheMinuteOfDayModuloSixty : Obligations.GetMinuteIsTheMinuteOfDayModuloSixty := by
  refine ⟨fun htp => decode_encode (i := .getMinute) rfl, fun s => ?_⟩
  have answer := intResult_toNat (n := (minuteOfDayNum s + 60) % 60) (by omega) (by omega)
  exact ⟨_, minuteOfDay_eq_num s ▸ rfl, answer, answer.trans (Int.add_emod_right _ _), by omega⟩

/-- For fields in range the minute of day is below 1440, with or without the wrap (90_conflicts.md C3). -/
theorem minuteOfDayNum_le_of_inRange {s : State} (hour : hourFieldNum s ≤ 23)
    (minute : minuteFieldNum s ≤ 59) : minuteOfDayNum s ≤ 1439 := by
  unfold minuteOfDayNum
  split <;> omega

/-- Settles O45: below 1440 the division by 60 has a quotient below 24, so no accessor loses a part. -/
theorem inRangeFieldsGiveOneTimeOfDay : Obligations.InRangeFieldsGiveOneTimeOfDay := by
  intro s hour minute
  have inDay : minuteOfDayNum s ≤ 1439 := minuteOfDayNum_le_of_inRange hour minute
  obtain ⟨d, execDay, dayNum, -⟩ := getMinuteOfDayRendersTheFields.2 s
  obtain ⟨h, execHour, hourNum, -⟩ := getHourDividesTheMinuteOfDay.2 s
  obtain ⟨m, execMinute, -, minuteNum, -⟩ := getMinuteIsTheMinuteOfDayModuloSixty.2 s
  refine ⟨_, _, _, execDay, execHour, execMinute, ?_, ?_⟩
  · change d.toNat ≤ 1439
    omega
  · change h.toNat * 60 + m.toNat = d.toNat
    omega

end Sys2Proof.Machine
end

section
/-! The lifecycle operations (42_lifecycle.md R180 to R184): what the queries answer in a cleared state, the
two enables, and the state that each operation leaves. -/

namespace Sys2Proof.Machine

/-! ### The queries in a cleared state -/

/-- While QUALITY is 0 the lazy loss check has nothing to clear (41_queries.md R140). -/
theorem execHasSignal_of_quality_eq_false {s : State} (low : s.quality = false) :
    execHasSignal s = .next (respond 0 s) := by
  cases silent : silentTooLong s with
  | true =>
    have kept : setQuality false s = s := by rw [← low]; rfl
    rw [execHasSignal_silent silent, kept]
  | false =>
    rw [execHasSignal_heard silent, low]
    rfl

/-- Without a sync no frame is valid (41_queries.md R146). -/
theorem frameValid_eq_false_of_tSync {s : State} (unset : s.tSync = 0) : frameValid s = false := by
  simp [frameValid, unset]

theorem execIsValid_of_tSync_eq_zero {s : State} (unset : s.tSync = 0) :
    execIsValid s = .next (respond 0 s) := by
  rw [execIsValid, frameValid_eq_false_of_tSync unset]
  rfl

/-- Without a bit both fields are 0, and the offset of −1 wraps (41_queries.md R162). -/
theorem minuteOfDay_nil : minuteOfDay [] = 1439 := rfl

theorem execGetMinuteOfDay_of_buf_eq_nil {s : State} (empty : s.buf = []) :
    execGetMinuteOfDay s = .next (respond 1439 s) := by
  rw [execGetMinuteOfDay, empty, minuteOfDay_nil]
  rfl

theorem execGetHour_of_buf_eq_nil {s : State} (empty : s.buf = []) :
    execGetHour s = .next (respond 23 s) := by
  rw [execGetHour, empty, minuteOfDay_nil]
  rfl

theorem execGetMinute_of_buf_eq_nil {s : State} (empty : s.buf = []) :
    execGetMinute s = .next (respond 59 s) := by
  rw [execGetMinute, empty, minuteOfDay_nil]
  rfl

theorem execGetSecond_of_cursor_eq_zero {s : State} (start : s.cursor = 0) :
    execGetSecond s = .next (respond 0 s) := by
  rw [execGetSecond, start]
  rfl

/-- Settles O20: STOP leaves EDGE_EN, QUALITY, T_SYNC and CURSOR at 0 and the buffer empty, and each of the
seven operations answers from one of these alone, at any time and line level. -/
theorem afterStopEveryQueryAnswersCleared : Obligations.AfterStopEveryQueryAnswersCleared := by
  intro s t n l h
  obtain rfl := Host.Outcome.next.inj h
  exact ⟨execEdge_gated rfl, execIsValid_of_tSync_eq_zero rfl, execGetSecond_of_cursor_eq_zero rfl,
    execGetMinuteOfDay_of_buf_eq_nil rfl, execGetHour_of_buf_eq_nil rfl,
    execGetMinute_of_buf_eq_nil rfl, execHasSignal_of_quality_eq_false rfl⟩

/-! ### The enables -/

theorem powerEn_eq_edgeEn_sampleInputs {s : State} (equal : s.powerEn = s.edgeEn) :
    (sampleInputs s).powerEn = (sampleInputs s).edgeEn := by
  obtain ⟨-, e⟩ | ⟨_, _, _, _, _, -, e⟩ | ⟨_, _, _, -, e⟩ | ⟨_, -, e⟩ := sampleInputs_cases s
  · rw [e]; exact equal
  · rw [e]; exact equal
  · rw [e]; exact equal
  · rw [e]; rfl

/-- START sets both enables, STOP clears both, and no other operation writes one. -/
theorem OpEffect.powerEn_eq_edgeEn {i : Instr} {s t : State} (e : OpEffect s i t)
    (equal : s.powerEn = s.edgeEn) : t.powerEn = t.edgeEn := by
  cases e with
  | start | stop => rfl
  | _ => exact equal

/-- Settles O60: the sampling of an input keeps the enables equal, and so does each of the three ways in
which a step goes on. -/
theorem everyStepKeepsPowerAndEdgeEnableEqual :
    Obligations.EveryStepKeepsPowerAndEdgeEnableEqual := by
  intro s t equal h
  have sampled := powerEn_eq_edgeEn_sampleInputs equal
  obtain ⟨-, rfl⟩ | ⟨-, i, -, op⟩ | ⟨-, _, -, rfl⟩ := step_cases h
  · exact sampled
  · exact (effect_of_exec op).powerEn_eq_edgeEn sampled
  · exact sampled

/-! ### The four operations -/

/-- Settles O15: the word is the one of NOP, which performs `respond 0`. -/
theorem nopOnlyResponds : Obligations.NopOnlyResponds :=
  ⟨fun _ => decode_encode (i := .nop) rfl, fun _ => rfl⟩

/-- Settles O16: the cleared buffer is the empty one, in which every slot reads 0. -/
theorem startPowersUpClearsAndTakesEdges : Obligations.StartPowersUpClearsAndTakesEdges :=
  ⟨fun _ => decode_encode (i := .start) rfl, fun _ => ⟨[], readSlot_nil, rfl⟩⟩

/-- Settles O17: the cleared buffer is the empty one, in which every slot reads 0. -/
theorem stopDropsEdgesClearsAndPowersDown : Obligations.StopDropsEdgesClearsAndPowersDown :=
  ⟨fun _ => decode_encode (i := .stop) rfl, fun _ => ⟨[], readSlot_nil, rfl⟩⟩

/-- Settles O18: the cleared buffer is the empty one, in which every slot reads 0. -/
theorem restartOnlyClears : Obligations.RestartOnlyClears :=
  ⟨fun _ => decode_encode (i := .restart) rfl, fun _ => ⟨[], readSlot_nil, rfl⟩⟩

/-- Settles O19: what each of the three writes is constant, so that the second time writes what stands there
already. -/
theorem lifecycleOperationsAreIdempotent : Obligations.LifecycleOperationsAreIdempotent :=
  fun _ => ⟨⟨_, rfl, rfl⟩, ⟨_, rfl, rfl⟩, ⟨_, rfl, rfl⟩⟩

end Sys2Proof.Machine
end

section
/-! The words of the test port by number (43_test_port.md R200, R201): the value of a word from its fields,
and the words with one of the two `OP` numbers that are refused. -/

namespace Sys2Proof

theorem toNat_assemble (op : BitVec 4) (v : BitVec 1) (idx : BitVec 6) :
    (assemble op v idx).toNat = op.toNat + 16 * v.toNat + 256 * idx.toNat := by
  have opBits := opField_toNat (assemble op v idx)
  have vBits := vField_toNat (assemble op v idx)
  have rsv0Bits := rsv0Field_toNat (assemble op v idx)
  have idxBits := idxField_toNat (assemble op v idx)
  have rsv1Bits := rsv1Field_toNat (assemble op v idx)
  simp only [opField_assemble, vField_assemble, rsv0Field_assemble, idxField_assemble,
    rsv1Field_assemble, BitVec.ofNat_eq_ofNat, BitVec.toNat_zero] at opBits vBits rsv0Bits idxBits rsv1Bits
  omega

theorem port_and_slotExists_iff {htp : Bool} {idx : BitVec 6} :
    (htp && slotExists idx) = true ↔ htp = true ∧ idx.toNat ≤ 60 := by
  rw [Bool.and_eq_true, slotExists_iff]

theorem decode_eq_rdslot_iff_toNat {htp : Bool} {w : Word} {idx : BitVec 6} :
    decode htp w = .ok (.rdslot idx) ↔
      htp = true ∧ idx.toNat ≤ 60 ∧ w.toNat = 11 + 256 * idx.toNat := by
  have word : encode (.rdslot idx) = w ↔ w.toNat = 11 + 256 * idx.toNat := by
    rw [eq_comm, ← BitVec.toNat_inj, encode, toNat_assemble]
    rfl
  rw [decode_eq_ok_iff, word, Instr.wellFormed, port_and_slotExists_iff, and_comm, and_assoc]

theorem decode_eq_wrslot_iff_toNat {htp : Bool} {w : Word} {idx : BitVec 6} {v : Bool} :
    decode htp w = .ok (.wrslot idx v) ↔
      htp = true ∧ idx.toNat ≤ 60 ∧ w.toNat = 12 + 16 * v.toNat + 256 * idx.toNat := by
  have word : encode (.wrslot idx v) = w ↔ w.toNat = 12 + 16 * v.toNat + 256 * idx.toNat := by
    rw [eq_comm, ← BitVec.toNat_inj, encode, toNat_assemble, BitVec.toNat_ofBool]
    rfl
  rw [decode_eq_ok_iff, word, Instr.wellFormed, port_and_slotExists_iff, and_comm, and_assoc]

theorem eq_rdslot_of_opField {i : Instr} (h : opField (encode i) = 0xB) : ∃ idx, i = .rdslot idx := by
  cases i with
  | rdslot idx => exact ⟨idx, rfl⟩
  | _ => simp [encode] at h

theorem eq_wrslot_of_opField {i : Instr} (h : opField (encode i) = 0xC) :
    ∃ idx v, i = .wrslot idx v := by
  cases i with
  | wrslot idx v => exact ⟨idx, v, rfl⟩
  | _ => simp [encode] at h

/-- A word that decodes to no operation with its `OP` is refused. -/
theorem refused_of_no_instr_of_op {htp : Bool} {w : Word}
    (h : ∀ i, opField (encode i) = opField w → decode htp w ≠ .ok i) :
    ∃ e, decode htp w = .error e := by
  cases answer : decode htp w with
  | error e => exact ⟨e, rfl⟩
  | ok i =>
    have word : encode i = w := (encode_wellFormed_of_decode answer).1
    exact absurd answer (h i (congrArg opField word))

theorem refused_of_no_rdslot {htp : Bool} {w : Word} (op : w.toNat % 16 = 11)
    (noRdslot : ∀ idx, decode htp w ≠ .ok (.rdslot idx)) : ∃ e, decode htp w = .error e := by
  refine refused_of_no_instr_of_op fun i sameOp => ?_
  have is11 : opField w = 0xB := BitVec.eq_of_toNat_eq ((opField_toNat w).trans op)
  obtain ⟨idx, rfl⟩ := eq_rdslot_of_opField (sameOp.trans is11)
  exact noRdslot idx

theorem refused_of_no_wrslot {htp : Bool} {w : Word} (op : w.toNat % 16 = 12)
    (noWrslot : ∀ idx v, decode htp w ≠ .ok (.wrslot idx v)) : ∃ e, decode htp w = .error e := by
  refine refused_of_no_instr_of_op fun i sameOp => ?_
  have is12 : opField w = 0xC := BitVec.eq_of_toNat_eq ((opField_toNat w).trans op)
  obtain ⟨idx, v, rfl⟩ := eq_wrslot_of_opField (sameOp.trans is12)
  exact noWrslot idx v

end Sys2Proof
end

section
/-! The test port (43_test_port.md R200, R201): what RDSLOT and WRSLOT answer and write, and their
exceptions. -/

namespace Sys2Proof.Machine

theorem slotOperandLegal_eq_false_iff {s : State} {idx : BitVec 6} :
    slotOperandLegal idx s = false ↔ s.cfg.hasTestPort = false ∨ 61 ≤ idx.toNat := by
  rw [slotOperandLegal, Bool.and_eq_false_iff, ← Bool.not_eq_true (slotExists idx), slotExists_iff, not_le]
  rfl

/-- Settles O47: an RDSLOT that exists responds with its slot. -/
theorem rdslotReadsTheSlot : Obligations.RdslotReadsTheSlot :=
  ⟨fun _ _ _ => decode_eq_rdslot_iff_toNat, fun _ _ => refused_of_no_rdslot,
    fun _ _ port le => execRdslot_legal (slotOperandLegal_of_le port le)⟩

/-- RDSLOT answers `v` in a block whose buffer holds `v` in the slot. -/
theorem execRdslot_of_slot_eq {s : State} {idx : BitVec 6} {v : Bool}
    (legal : slotOperandLegal idx s = true) (holds : s.slot idx.toNat = v) :
    execRdslot idx s = .next (respond (boolResult v) s) := by
  rw [execRdslot_legal legal, holds]

/-- Settles O48: the buffer after WRSLOT is the one with the slot written, and RDSLOT reads that slot as the
bit last written to it. -/
theorem wrslotWritesExactlyTheSlot : Obligations.WrslotWritesExactlyTheSlot := by
  refine ⟨fun _ _ _ _ => decode_eq_wrslot_iff_toNat, fun _ _ => refused_of_no_wrslot, ?_⟩
  intro s idx v port le
  have legal : slotOperandLegal idx s = true := slotOperandLegal_of_le port le
  have written : (s.buf.writeSlot idx.toNat v).readSlot idx.toNat = v := readSlot_writeSlot_same _ _ v
  exact ⟨s.buf.writeSlot idx.toNat v, execWrslot_legal legal v, written,
    fun _ ne => readSlot_writeSlot_other s.buf v ne, execRdslot_of_slot_eq legal written⟩

/-- Settles O49: an operand that the block does not have makes both meanings answer as illegal. -/
theorem missingSlotOrTestPortIsIllegal : Obligations.MissingSlotOrTestPortIsIllegal := by
  intro s idx v missing
  have illegal : slotOperandLegal idx s = false := slotOperandLegal_eq_false_iff.2 missing
  exact ⟨execRdslot_illegal illegal, execWrslot_illegal illegal v⟩

end Sys2Proof.Machine
end

section
/-! The timestamps on a clock that does not wrap (60_exceptions.md R229): their order is kept by the sampling
of an input, and by every operation, since an operation writes into them only `NOW`, a pulse start that is
already there, or 0. -/

namespace Sys2Proof.Machine

theorem clockForward_issue {w : Nat} {t now : Timestamp w} {a : Agent} {cmd : Word} {line : Bool}
    {rest : List (Input w)} :
    clockForward t (.issue a cmd now line :: rest) = true ↔ t ≤ now ∧ clockForward now rest = true := by
  simp only [clockForward, Bool.and_eq_true, decide_eq_true_eq]

theorem clockForward_idle {w : Nat} {t now : Timestamp w} {line : Bool} {rest : List (Input w)} :
    clockForward t (.idle now line :: rest) = true ↔ t ≤ now ∧ clockForward now rest = true := by
  simp only [clockForward, Bool.and_eq_true, decide_eq_true_eq]

theorem clockForward_reset {w : Nat} {t : Timestamp w} {rest : List (Input w)} :
    clockForward t (.reset :: rest) = clockForward t rest := rfl

/-- A clock that moves on leaves behind it the timestamps that were not in its future. -/
theorem timeOrdered_advance {s : State} (h : s.timeOrdered) {now : Timestamp s.cfg.tsWidth}
    (later : s.now ≤ now) {rest : List (Input s.cfg.tsWidth)} (forward : clockForward now rest = true) :
    State.timeOrdered { s with now := now, pending := rest } := by
  obtain ⟨starts, startCur, pulseEnd, syncPast, -⟩ := h
  exact ⟨starts, BitVec.le_trans startCur later, BitVec.le_trans pulseEnd later,
    BitVec.le_trans syncPast later, forward⟩

/-- Timestamps that are all 0 are in order at any time. -/
theorem timeOrdered_of_cleared {s : State} (tStartPrev : s.tStartPrev = 0) (tStartCur : s.tStartCur = 0)
    (tEnd : s.tEnd = 0) (tSync : s.tSync = 0) (forward : clockForward s.now s.pending = true) :
    s.timeOrdered := by
  have past (x : Timestamp s.cfg.tsWidth) : 0 ≤ x := Nat.zero_le x.toNat
  rw [State.timeOrdered, tStartPrev, tStartCur, tEnd, tSync]
  exact ⟨past 0, past s.now, past s.now, past s.now, forward⟩

theorem timeOrdered_sampleInputs {s : State} (h : s.timeOrdered) : (sampleInputs s).timeOrdered := by
  have ⟨_, _, _, _, forward⟩ := h
  obtain ⟨-, e⟩ | ⟨a, cmd, now, line, rest, p, e⟩ | ⟨now, line, rest, p, e⟩ | ⟨rest, p, e⟩ :=
    sampleInputs_cases s
  · rw [e]; exact h
  · obtain ⟨later, forward⟩ := clockForward_issue.1 (p ▸ forward)
    rw [e]; exact timeOrdered_advance h later forward
  · obtain ⟨later, forward⟩ := clockForward_idle.1 (p ▸ forward)
    rw [e]; exact timeOrdered_advance h later forward
  · rw [p, clockForward_reset] at forward
    rw [e]; exact timeOrdered_of_cleared rfl rfl rfl rfl forward

/-- A rising edge shifts the pulse starts, a sync and a pulse end happen now, and a clear leaves 0. -/
theorem OpEffect.timeOrdered {i : Instr} {s t : State} (e : OpEffect s i t) (h : s.timeOrdered) :
    t.timeOrdered := by
  have ⟨starts, startCur, pulseEnd, syncPast, forward⟩ := h
  cases e with
  | answer _ | illegal _ | silence _ | wrslot _ | reject _ _ | sameLevel _ _ => exact h
  | start | stop | restart => exact timeOrdered_of_cleared rfl rfl rfl rfl forward
  | sync _ _ _ _ => exact ⟨startCur, BitVec.le_refl _, pulseEnd, BitVec.le_refl _, forward⟩
  | tick _ _ _ _ => exact ⟨startCur, BitVec.le_refl _, pulseEnd, syncPast, forward⟩
  | fall _ _ _ _ => exact ⟨starts, startCur, BitVec.le_refl _, syncPast, forward⟩

/-- Settles O59: the sampling of an input keeps the order, and so does each of the three ways in which a step
goes on. -/
theorem everyStepKeepsTheTimestampsOrdered : Obligations.EveryStepKeepsTheTimestampsOrdered := by
  intro s t ordered h
  have sampled : (sampleInputs s).timeOrdered := timeOrdered_sampleInputs ordered
  obtain ⟨-, rfl⟩ | ⟨-, i, -, op⟩ | ⟨-, _, -, rfl⟩ := step_cases h
  · exact sampled
  · exact (effect_of_exec op).timeOrdered sampled
  · exact sampled

end Sys2Proof.Machine
end

section
/-! The step from its parts (60_exceptions.md R210, R216, R220): where it performs, where it refuses, and
that it always goes on from a legal state. -/

namespace Sys2Proof.Machine

theorem step_of_issued {s : State} (issued : (sampleInputs s).cmdValid = true) :
    step s = perform (sampleInputs s) := if_pos issued

theorem step_of_not_issued {s : State} (quiet : (sampleInputs s).cmdValid = false) :
    step s = .next (sampleInputs s) := by
  simp [step, quiet]

theorem perform_of_decoded {s : State} {i : Instr} (word : decode s.cfg.hasTestPort s.cmd = .ok i) :
    perform s = exec i s := by
  rw [perform, word]

theorem perform_of_refused {s : State} {e : DecodeError}
    (refused : decode s.cfg.hasTestPort s.cmd = .error e) : perform s = .next (raiseIllegal s) := by
  rw [perform, refused]

/-- Whatever word stands on CMD, it is performed or answered (60_exceptions.md R210, R212). -/
theorem perform_completes {s : State} (cursorOk : s.cursorOk) : ∃ t, perform s = .next t := by
  cases word : decode s.cfg.hasTestPort s.cmd with
  | ok i =>
    rw [perform_of_decoded word]
    exact exec_completes cursorOk i
  | error e => exact ⟨_, perform_of_refused word⟩

/-- A step reads its state only through the sampled inputs. -/
theorem step_congr {s t : State} (h : sampleInputs s = sampleInputs t) : step s = step t := by
  simp only [step, h]

/-- Settles O9: the decoder refuses the words of the table, and a refused word is answered. -/
theorem illegalWordAnswersErrAndWritesNothing : Obligations.IllegalWordAnswersErrAndWritesNothing := by
  intro s a c n l rest h illegal
  obtain ⟨e, refused⟩ := (decoderRefusesExactlyTheIllegalWords _ _).2 illegal
  have sampled := sampleInputs_issue h
  rw [step_of_issued (by rw [sampled]), sampled]
  exact perform_of_refused refused

/-- Settles O58: the sampled state is legal too, so its cursor is in range for whatever is performed. -/
theorem legalStatesNeverStop : Obligations.LegalStatesNeverStop := by
  intro s inv
  cases issued : (sampleInputs s).cmdValid with
  | false => exact ⟨_, step_of_not_issued issued⟩
  | true =>
    obtain ⟨-, cursorOk, -⟩ := inv_sampleInputs inv
    rw [step_of_issued issued]
    exact perform_completes cursorOk

/-- Settles O8, by the step on an issued word. -/
theorem stepPerformsTheDecodedOperation : Obligations.StepPerformsTheDecodedOperation :=
  fun _ _ _ _ _ _ _ => step_of_issue

/-- Settles O12: the sampling drops the agent. -/
theorem theIssuingAgentIsNotChecked : Obligations.TheIssuingAgentIsNotChecked :=
  fun _ _ _ _ _ _ _ => step_congr ((sampleInputs_issue rfl).trans (sampleInputs_issue rfl).symm)

end Sys2Proof.Machine
end

section
/-! The frame of EDGE (60_exceptions.md R212, 20_memory.md R51): a refused edge, an accepted rising edge, an
accepted falling edge and an edge at the same level, each with what it leaves. -/

namespace Sys2Proof.Machine

/-- An edge that is dropped at the gate or rejected by a noise rule writes QUALITY and the response alone
(40_edge_classifier.md R101, R102, R112). -/
theorem execEdge_of_not_accepted {s : State} (refused : ¬ s.edgeAccepted) :
    ∃ q, execEdge s = .next { s with quality := q, result := 0, err := false } := by
  by_cases en : s.edgeEn = true
  · have noise : noiseRule1 s = true ∨ noiseRule2 s = true := by
      by_contra quiet
      exact refused ((edgeTaken_iff s).1 ⟨en, by simpa using not_or.1 quiet⟩)
    exact ⟨false, execEdge_rejected en noise⟩
  · exact ⟨s.quality, execEdge_gated (eq_false_of_ne_true en)⟩

/-- An accepted rising edge, sync or tick, shifts the pulse starts and writes neither the buffer nor the pulse
end (40_edge_classifier.md R105 to R107). -/
theorem execEdge_of_accepted_rise {s : State} (accepted : s.edgeAccepted) (lv : s.lvlPrev = false)
    (ln : s.line = true) :
    ∃ c ts tx, execEdge s = .next { s with
      quality := true, tStartPrev := s.tStartCur, tStartCur := s.now, cursor := c, tSync := ts,
      tExpiry := tx, lvlPrev := true, result := 0, err := false } := by
  by_cases long : 1500 < (s.now - s.tStartCur).toNat
  · exact ⟨_, _, _, risingEdgeAfterALongGapSyncs s accepted lv ln long⟩
  · exact ⟨_, _, _, risingEdgeAfterAShortGapTicks s accepted lv ln (not_lt.1 long)⟩

/-- The levels before and now (40_edge_classifier.md R104, R110). -/
theorem level_cases (s : State) :
    s.line = s.lvlPrev ∨ (s.lvlPrev = false ∧ s.line = true) ∨ (s.lvlPrev = true ∧ s.line = false) := by
  cases s.lvlPrev <;> cases s.line <;> simp

/-- Settles O28: by acceptance, then by the level before and the level now. -/
theorem edgeAlwaysCompletesWithinItsFrame : Obligations.EdgeAlwaysCompletesWithinItsFrame := by
  intro s cursorOk
  by_cases accepted : s.edgeAccepted
  · obtain same | ⟨lv, ln⟩ | ⟨lv, ln⟩ := level_cases s
    · exact ⟨_, _, _, _, _, _, _, _, _, sameLevelEdgeOnlySetsQuality s accepted same, fun _ _ => rfl,
        fun _ => ⟨rfl, rfl⟩, fun _ => ⟨rfl, rfl, rfl, rfl, rfl⟩, absurd accepted⟩
    · obtain ⟨c, ts, tx, rise⟩ := execEdge_of_accepted_rise accepted lv ln
      exact ⟨_, _, _, _, _, _, _, _, _, rise, fun _ _ => rfl, fun _ => ⟨rfl, rfl⟩,
        absurd ⟨accepted, lv, ln⟩, absurd accepted⟩
    · obtain ⟨m, fall, -, others⟩ := fallingEdgeStoresThePulseClass s accepted cursorOk lv ln
      exact ⟨_, _, _, _, _, _, _, _, _, fall, others, absurd ⟨accepted, lv, ln⟩,
        fun _ => ⟨rfl, rfl, rfl, rfl, rfl⟩, absurd accepted⟩
  · obtain ⟨q, refused⟩ := execEdge_of_not_accepted accepted
    exact ⟨_, _, _, _, _, _, _, _, _, refused, fun _ _ => rfl, fun _ => ⟨rfl, rfl⟩,
      fun _ => ⟨rfl, rfl, rfl, rfl, rfl⟩, fun _ => rfl⟩

end Sys2Proof.Machine
end

section
/-! Reset and the hazards around it (70_reset_and_hazards.md R240, R241, R251, R253, R254, R258): the steps
that perform no operation, the sync after a clear and at time zero, the two orders of HAS_SIGNAL and EDGE at
one moment, and the expiry across a wrap of the clock. -/

namespace Sys2Proof.Machine

/-! ### The steps that perform no operation -/

theorem step_of_no_input {s : State} (h : s.pending = []) : step s = .next { s with cmdValid := false } := by
  have sampled := sampleInputs_none h
  rw [step_of_not_issued (by rw [sampled]), sampled]

theorem step_of_idle {s : State} {n : Timestamp s.cfg.tsWidth} {l : Bool}
    {rest : List (Input s.cfg.tsWidth)} (h : s.pending = .idle n l :: rest) :
    step s = .next { s with cmdValid := false, now := n, line := l, pending := rest } := by
  have sampled := sampleInputs_idle h
  rw [step_of_not_issued (by rw [sampled]), sampled]

theorem step_of_reset {s : State} {rest : List (Input s.cfg.tsWidth)} (h : s.pending = .reset :: rest) :
    step s = .next { platformReset s with pending := rest } := by
  have sampled := sampleInputs_reset h
  rw [step_of_not_issued (by rw [sampled]; rfl), sampled]

/-! ### Power-on and the platform reset -/

/-- Settles O13: the reset state is written from the table, and a step without an operation writes the input
ports alone. -/
theorem powerOnValuesAndHeldOutputs : Obligations.PowerOnValuesAndHeldOutputs :=
  ⟨rfl, rfl, rfl, rfl, rfl, rfl, rfl, rfl, readSlot_nil, rfl, rfl, rfl, rfl,
    fun s quiet => ⟨s.cmd, false, s.now, s.line, step_of_no_input quiet⟩,
    fun s _ _ _ idle => ⟨s.cmd, false, step_of_idle idle⟩⟩

/-- Settles O14: the buffer after a reset is the empty one, in which every slot reads 0. -/
theorem platformResetRestoresPowerOnValues : Obligations.PlatformResetRestoresPowerOnValues :=
  fun s _ reset => ⟨[], s.cmd, false, s.now, s.line, readSlot_nil, step_of_reset reset⟩

/-- Settles O56: at power-on every decoder element is cleared and the response is 0. -/
theorem powerOnStateIsLegal : Obligations.PowerOnStateIsLegal :=
  inv_of_cleared (by decide) rfl rfl rfl rfl ⟨fun _ => rfl, Nat.zero_le _⟩

/-! ### The sync after a clear -/

/-- While both pulse starts stand at 0 the gap from either is the time itself, so a late rising edge passes both
noise rules and syncs (40_edge_classifier.md R113 item 2). -/
theorem execEdge_of_pulseStarts_eq_zero {s : State} (en : s.edgeEn = true) (lv : s.lvlPrev = false)
    (ln : s.line = true) (prev : s.tStartPrev = 0) (cur : s.tStartCur = 0) (late : 1500 < s.now.toNat) :
    execEdge s = .next { s with
      quality := true, tStartPrev := s.tStartCur, tStartCur := s.now, cursor := 0, tSync := s.now,
      tExpiry := s.now + BitVec.ofNat s.cfg.tsWidth 300000, lvlPrev := true, result := 0, err := false } := by
  have sincePrev : s.now - s.tStartPrev = s.now := by simp [prev]
  have sinceCur : s.now - s.tStartCur = s.now := by simp [cur]
  have accepted : s.edgeAccepted := ⟨en, by rw [sincePrev]; omega, by rw [sinceCur]; omega⟩
  exact risingEdgeAfterALongGapSyncs s accepted lv ln (by rwa [sinceCur])

/-- Settles O29: START takes edges and leaves the level and both pulse starts at 0. -/
theorem firstPulseAfterStartSyncs : Obligations.FirstPulseAfterStartSyncs := by
  intro s t n start late
  obtain rfl := Host.Outcome.next.inj start
  exact execEdge_of_pulseStarts_eq_zero rfl rfl rfl rfl rfl late

/-! ### The staleness window in a clock of at least 20 bits -/

theorem staleMs_lt_two_pow {w : Nat} (wide : 20 ≤ w) : 300000 < 2 ^ w :=
  calc 300000 < 2 ^ 20 := by decide
    _ ≤ 2 ^ w := Nat.pow_le_pow_right (by decide) wide

theorem toNat_staleMs {w : Nat} (wide : 20 ≤ w) : (BitVec.ofNat w 300000).toNat = 300000 :=
  (BitVec.toNat_ofNat _ _).trans (Nat.mod_eq_of_lt (staleMs_lt_two_pow wide))

/-- Settles O31: the sync writes the time 0 to T_SYNC, which reads as unset, so that no frame is valid. -/
theorem syncAtTimeZeroLooksUnset : Obligations.SyncAtTimeZeroLooksUnset := by
  intro s wide accepted lv ln zero long
  refine ⟨_, risingEdgeAfterALongGapSyncs s accepted lv ln long, zero, ?_, fun n c m => ?_⟩
  · have expiry : s.now + BitVec.ofNat s.cfg.tsWidth 300000 = BitVec.ofNat s.cfg.tsWidth 300000 := by
      simp [zero]
    exact (congrArg BitVec.toNat expiry).trans (toNat_staleMs wide)
  · exact execIsValid_of_tSync_eq_zero zero

theorem execIsValid_of_frameValid {s : State} {b : Bool} (h : frameValid s = b) :
    execIsValid s = .next (respond (boolResult b) s) := by
  rw [execIsValid, h]

/-- Settles O40: the sum of T_SYNC and the window passes the wrap once, and a T_SYNC so near the wrap is
not 0. -/
theorem expiryWrapsBeforeTheClock : Obligations.ExpiryWrapsBeforeTheClock := by
  intro s wide late expiry cursor good
  have fits := staleMs_lt_two_pow wide
  have wrapped : s.tExpiry.toNat + 2 ^ s.cfg.tsWidth = s.tSync.toNat + 300000 := by
    have below := s.tSync.isLt
    rw [expiry, BitVec.toNat_add, toNat_staleMs wide, Nat.mod_eq_sub_mod (by omega),
      Nat.mod_eq_of_lt (by omega)]
    omega
  refine ⟨wrapped, fun past => ?_, fun fresh => ?_⟩
  · have invalid : frameValid s = false := by
      simp [frameValid, BitVec.not_lt.2 past]
    exact execIsValid_of_frameValid invalid
  · have nearTheWrap : s.tSync.toNat ≠ 0 := by omega
    have synced : s.tSync ≠ 0 := fun unset => nearTheWrap (by simp [unset])
    have valid : frameValid s = true := (frameValid_iff s).2 ⟨synced, fresh, cursor, good⟩
    exact execIsValid_of_frameValid valid

/-! ### HAS_SIGNAL and EDGE at one moment -/

section
variable {s : State} {a : Agent} {n : Timestamp s.cfg.tsWidth} {l : Bool} {rest : List (Input s.cfg.tsWidth)}

theorem step_hasSignal_of_silence (h : s.pending = .issue a 0x0005 n l :: rest)
    (silent : 2500 < (n - s.tStartCur).toNat) :
    step s = .next { s with
      cmdValid := true, cmd := 0x0005, now := n, line := l, pending := rest, quality := false,
      result := 0, err := false } :=
  (step_of_issue h (decode_encode (i := .hasSignal) rfl)).trans
    (execHasSignal_silent (decide_eq_true silent))

theorem step_hasSignal_of_pulseStart_now (h : s.pending = .issue a 0x0005 n l :: rest)
    (cur : s.tStartCur = n) :
    step s = .next { s with
      cmdValid := true, cmd := 0x0005, now := n, line := l, pending := rest,
      result := boolResult s.quality, err := false } := by
  have noGap : ¬ 2500 < (n - s.tStartCur).toNat := by simp [cur]
  exact (step_of_issue h (decode_encode (i := .hasSignal) rfl)).trans
    (execHasSignal_heard (decide_eq_false noGap))

/-- A gap above 2500 ms from the last pulse start passes noise rule 2 and is long enough for a sync. -/
theorem step_edge_of_silence (h : s.pending = .issue a 0x0001 n true :: rest) (en : s.edgeEn = true)
    (lv : s.lvlPrev = false) (distant : 700 ≤ (n - s.tStartPrev).toNat)
    (silent : 2500 < (n - s.tStartCur).toNat) :
    step s = .next { s with
      cmdValid := true, cmd := 0x0001, now := n, line := true, pending := rest, quality := true,
      tStartPrev := s.tStartCur, tStartCur := n, cursor := 0, tSync := n,
      tExpiry := n + BitVec.ofNat s.cfg.tsWidth 300000, lvlPrev := true, result := 0, err := false } := by
  have wide : 50 ≤ (n - s.tStartCur).toNat := by omega
  have long : 1500 < (n - s.tStartCur).toNat := by omega
  exact (step_of_issue h (decode_encode (i := .edge) rfl)).trans
    (risingEdgeAfterALongGapSyncs _ ⟨en, distant, wide⟩ lv rfl long)

end

/-- Settles O35: HAS_SIGNAL in the silence answers 0 and writes nothing that the edge's acceptance reads; the
edge performed first sets QUALITY and ends the silence, since the pulse start is now the present time. -/
theorem hasSignalAndEdgeInEitherOrder : Obligations.HasSignalAndEdgeInEitherOrder := by
  intro s a b n l rest en lv distant silent
  constructor
  · exact ⟨_, _, step_hasSignal_of_silence rfl silent, rfl,
      step_edge_of_silence rfl en lv distant silent, rfl⟩
  · exact ⟨_, _, step_edge_of_silence rfl en lv distant silent,
      step_hasSignal_of_pulseStart_now rfl rfl, rfl, rfl⟩

end Sys2Proof.Machine
end
